-- ==== Sys2Proof/Word.lean ====
section
/-! DEFINITION. The word types of the core: bytes, byte sequences and 16-byte blocks
(spec/00_scope.md R11, R12, R14). -/

namespace Sys2Proof

/-- A byte is 8 bits (R11). -/
abbrev Byte := BitVec 8

/-- A byte sequence, first byte first (R12). -/
abbrev Bytes := List Byte

/-- A block: 16 bytes held as 128 bits, byte `i` being bits `8i+7 .. 8i` (the little-endian
reading of R13 and R17, under which bit `k` is the coefficient of `x^k`). -/
abbrev Block := BitVec 128

/-- `XOR16(a, b)` (R14): bytewise, equally bitwise, exclusive-or of two blocks. -/
abbrev xor16 (a b : Block) : Block := a ^^^ b

end Sys2Proof
end

