-- ==== Sys2Proof/Config.lean ====
section
/-! DEFINITION. What an implementation of the core fixes and what the spec leaves free: the block
cipher `BC`, the address width `AW` (spec/00_scope.md R8, R9, R10) and the free values
(spec/93_implementation_defined.md U1 to U4, U11). -/

namespace Sys2Proof

/-- The parameters of one core and its supply of free values. The machine runs on `Config.hw`;
operations take an `Hw` so that a statement can speak of every hardware and a test of one. -/
structure Hw where
  /-- `AW`, the width in bits of a buffer-memory address (R10). -/
  aw : Nat
  /-- `BC.KEYLENS`, the key lengths in bytes the cipher supports (R8). -/
  keyLens : List Nat
  /-- `BC.keyOk(k)`: the cipher accepts `k` as a key (R8). -/
  keyOk : Bytes → Bool
  /-- `BC.enc(k, b)` (R8). -/
  enc : Bytes → Block → Block
  /-- `BC.dec(k, b)` (R8). -/
  dec : Bytes → Block → Block
  /-- The free number of a draw (U3, U4). -/
  freeNat : Nat → Nat
  /-- Byte `i` of the free bytes of a draw (U1, U2, U3, U4, U11). -/
  freeByte : Nat → Nat → Byte

/-- What R8 and R10 require of the parameters. -/
structure Hw.Lawful (hw : Hw) : Prop where
  /-- 16 <= AW. -/
  aw_ge : 16 ≤ hw.aw
  /-- AW <= 64. -/
  aw_le : hw.aw ≤ 64
  /-- `BC.KEYLENS` is not empty. -/
  keyLens_ne : hw.keyLens ≠ []
  /-- 0 is not a supported length (spec/44_construct_lifecycle.md R156). -/
  keyLens_pos : ∀ n ∈ hw.keyLens, 0 < n
  /-- `BC.keyOk(k)` implies that `len(k)` is in `BC.KEYLENS`. -/
  keyOk_len : ∀ k, hw.keyOk k = true → k.length ∈ hw.keyLens

/-- Assumption `BC.inverse` (R9). No definition of the machine uses it. -/
def Hw.Inverse (hw : Hw) : Prop :=
  ∀ k b, hw.keyOk k = true → hw.dec k (hw.enc k b) = b ∧ hw.enc k (hw.dec k b) = b

/-- AW - 16, open (R10, 93 U10). Log 2. -/
opaque Config.awAbove16 : Fin 49
/-- One member of `BC.KEYLENS`, less one: the set is not empty (R8). Log 1. -/
opaque Config.firstKeyLen : Nat
/-- The other members of `BC.KEYLENS`, less one each. Log 1. -/
opaque Config.otherKeyLens : List Nat
/-- Which byte sequences of a supported length the cipher accepts (93 U9). Log 1. -/
opaque Config.keyAccepted : Bytes → Bool
/-- `BC.enc` (93 U8). Log 1. -/
opaque Config.bcEnc : Bytes → Block → Block
/-- `BC.dec` (93 U8). Log 1. -/
opaque Config.bcDec : Bytes → Block → Block
/-- The free numbers (93 U3, U4). Log 6. -/
opaque Config.freeNat : Nat → Nat
/-- The free bytes (93 U1, U2, U3, U4, U11). Log 6. -/
opaque Config.freeByte : Nat → Nat → Byte

/-- `AW`, between 16 and 64. -/
def Config.aw : Nat := 16 + Config.awAbove16.val

/-- `BC.KEYLENS`, a non-empty list of positive numbers. -/
def Config.keyLens : List Nat :=
  (Config.firstKeyLen + 1) :: Config.otherKeyLens.map (· + 1)

/-- `BC.keyOk`, with its law built in. -/
def Config.keyOk (k : Bytes) : Bool :=
  Config.keyLens.contains k.length && Config.keyAccepted k

/-- The hardware the machine runs on. -/
def Config.hw : Hw where
  aw := Config.aw
  keyLens := Config.keyLens
  keyOk := Config.keyOk
  enc := Config.bcEnc
  dec := Config.bcDec
  freeNat := Config.freeNat
  freeByte := Config.freeByte

end Sys2Proof
end

