-- ==== Sys2Proof/Machine/ByteOrder.lean ====
section
/-! DEFINITION. Bytes of blocks and the little-endian encodings (spec/00_scope.md R12, R13;
spec/20_memory.md R57). -/

namespace Sys2Proof.Machine

/-- The number a little-endian byte sequence stands for: `sum b[i] * 2^(8i)` (R13). -/
def leNat : Bytes → Nat
  | [] => 0
  | b :: t => b.toNat + 256 * leNat t

/-- `LE64(v)`: the 8 bytes of `v`, least significant first (R13). -/
def le64Bytes (v : BitVec 64) : Bytes :=
  (List.range 8).map fun i => v.extractLsb' (8 * i) 8

/-- Byte `i` of a block (R12, R17). -/
def blockByte (b : Block) (i : Nat) : Byte := b.extractLsb' (8 * i) 8

/-- A block as its 16 bytes, byte 0 first. -/
def blockBytes (b : Block) : Bytes := (List.range 16).map (blockByte b)

/-- The block whose bytes are those of a sequence of 16. -/
def blockOfBytes (l : Bytes) : Block := BitVec.ofNat 128 (leNat l)

/-- The block with byte `i` replaced (`T[i] <- b`, spec/20_memory.md R51). -/
def blockSetByte (t : Block) (i : Nat) (b : Byte) : Block :=
  blockOfBytes ((blockBytes t).set i b)

/-- `b[i..i+n)` (R12). -/
def slice (l : Bytes) (i n : Nat) : Bytes := (l.drop i).take n

end Sys2Proof.Machine
end

