-- ==== Sys2Proof/Syntax.lean ====
section
/-! DEFINITION. The command set `XTSCMD` version 1 (spec/30_encoding.md R76), the host actions
(spec/20_memory.md R50 to R53, spec/30_encoding.md R84) and the host script (R84 to R86). -/

namespace Sys2Proof

/-- The seven commands (R76). A command has no operand fields (R75). -/
inductive Instr where
  /-- XTS.NEW: construct the two cipher instances. -/
  | xtsNew
  /-- XTS.ENC: encrypt one sector. -/
  | xtsEnc
  /-- XTS.DEC: decrypt one sector. -/
  | xtsDec
  /-- GF.MULA: multiply T by alpha. -/
  | gfMula
  /-- TW.INIT: the initial tweak of SECTOR into T. -/
  | twInit
  /-- TW.ADV: advance the tweak in T. -/
  | twAdv
  /-- XTS.DROP: destroy the cipher instances. -/
  | xtsDrop
  deriving DecidableEq, Repr

/-- The fields of the format CMD32 (R75): `OP` in bits 3:0 and `ZERO` in bits 31:4. -/
structure Cmd32 where
  op : BitVec 4
  zero : BitVec 28
  deriving DecidableEq, Repr

/-- The names of the ten host-visible registers (spec/10_state.md R24). -/
inductive Reg where
  | cmd | status | klen | sector | src | dst | len | dcap | t | key
  deriving DecidableEq, Repr

/-- What the host can do: the four port operations (R50 to R53), and a store to or a load from its
own buffer memory (R84 `mem`, `dump`). Register numbers, byte indices and written values are any
naturals: the port itself decides which exist and drops bits above a register's width. -/
inductive HostAction where
  /-- `HostWrite(r, v)`. -/
  | write (r v : Nat)
  /-- `HostWriteByte(r, i, b)`. -/
  | writeByte (r i : Nat) (b : Byte)
  /-- `HostRead(r)`. -/
  | read (r : Nat)
  /-- `HostReadByte(r, i)`. -/
  | readByte (r i : Nat)
  /-- The host's own store of `bytes` at `a`. -/
  | mem (a : Nat) (bytes : Bytes)
  /-- The host's own load of `n` bytes at `a`. -/
  | dump (a n : Nat)
  deriving DecidableEq, Repr

/-- What can happen next (spec/70_reset_and_hazards.md R218, R215). -/
inductive Input where
  /-- The host acts. -/
  | host (a : HostAction)
  /-- The host polls STATUS until BUSY = 0 (R84 `wait`). -/
  | wait
  /-- The engine takes its turn. -/
  | engine
  /-- Reset is applied from outside (R215). -/
  | reset
  deriving DecidableEq, Repr

/-- The lines of a host script (R84) and its macros (R86). -/
inductive ScriptLine where
  /-- `wr REG, value` -/
  | wr (r : Reg) (v : Nat)
  /-- `wrb REG+k, hexbytes` (`wrb REG, hexbytes` is k = 0) -/
  | wrb (r : Reg) (k : Nat) (bytes : Bytes)
  /-- `cmd MNEMONIC` -/
  | cmd (i : Instr)
  /-- `cmd #value` -/
  | cmdWord (v : Nat)
  /-- `wait` -/
  | wait
  /-- `rd REG` -/
  | rd (r : Reg)
  /-- `rdb REG` -/
  | rdb (r : Reg)
  /-- `mem addr, hexbytes` -/
  | mem (a : Nat) (bytes : Bytes)
  /-- `dump addr, n` -/
  | dump (a n : Nat)
  /-- `run MNEMONIC` -/
  | run (i : Instr)
  /-- `run #value` -/
  | runWord (v : Nat)
  /-- `loadkey hexbytes` -/
  | loadkey (bytes : Bytes)
  /-- `setbuf s, d, l, c` -/
  | setbuf (s d l c : Nat)
  /-- `inplace s, l` -/
  | inplace (s l : Nat)
  /-- `rekey hexbytes` -/
  | rekey (bytes : Bytes)
  deriving DecidableEq, Repr

end Sys2Proof
end

