-- ==== Sys2Proof/Machine/State.lean ====
section
/-! DEFINITION. The whole state of the core, the host's side of it, and reset
(spec/10_state.md R20 to R43). -/

namespace Sys2Proof.Machine

/-- `PHASE` (R21). -/
inductive Phase where
  /-- No command in flight. -/
  | idle
  /-- A command in flight; visible as STATUS.BUSY = 1. -/
  | busy
  deriving DecidableEq, Repr

/-- The two key slots when both are filled (R33): `k1` keys the data cipher, `k2` the tweak cipher.
XTS.NEW fills both at once and XTS.DROP and reset empty both at once. -/
structure KeyPair where
  k1 : Bytes
  k2 : Bytes
  deriving DecidableEq, Repr

/-- Bytes by address, in one canonical form (`Memory.wf` of Machine/Ops.lean): addresses strictly
rising, no entry equal to what an unlisted address reads as. -/
abbrev Memory := List Host.Cell

/-- The buffers of an issued XTS.ENC or XTS.DEC (spec/70_reset_and_hazards.md R222, R223):
source `[src .. src+len)`, destination `[dst .. dst+dcap)`. -/
structure Claim where
  src : Nat
  len : Nat
  dst : Nat
  dcap : Nat
  deriving DecidableEq, Repr

/-- What a read of the host returned. -/
inductive Reply where
  /-- `HostRead(r)` returned `v`. -/
  | scalar (r v : Nat)
  /-- `HostReadByte(r, i)` returned `b`. -/
  | byte (r i : Nat) (b : Byte)
  /-- The host's own load at `a` returned `bytes`. -/
  | bytes (a : Nat) (bytes : Bytes)
  deriving DecidableEq, Repr

/-- The six errors a command can end with (spec/60_exceptions.md R186 to R192). -/
inductive CmdError where
  | invalidKeyLength
  | invalidInputLength
  | bufferTooSmall
  | illegalCommand
  | illegalState
  | illegalRange
  deriving DecidableEq, Repr

/-- The state of the machine. The first block is the core's, then buffer memory, then the model's
own fields (INVENTORY.md, State). Address-wide registers are held in 64 bits, of which only the low
AW exist (log 2). -/
structure State where
  /-- PHASE (R21). -/
  phase : Phase
  /-- CMDREG (R22). -/
  cmdReg : BitVec 32
  /-- STATUS.DONE (R36). -/
  done : Bool
  /-- STATUS.ERR (R36). -/
  err : Bool
  /-- STATUS.ERRCODE (R36). -/
  errCode : BitVec 4
  /-- KLEN (R25). -/
  klen : BitVec 32
  /-- SECTOR (R26). -/
  sector : BitVec 64
  /-- SRC (R27). -/
  src : BitVec 64
  /-- DST (R28). -/
  dst : BitVec 64
  /-- LEN (R29). -/
  len : BitVec 64
  /-- DCAP (R30). -/
  dcap : BitVec 64
  /-- T (R31). -/
  t : Block
  /-- KEY, by byte index (R34). -/
  key : Memory
  /-- K1 and K2, both filled or both empty (R32, R33); KEYED is `slots.isSome`. Log 13. -/
  slots : Option KeyPair
  /-- W, the working tweak (R38). -/
  w : Option Block
  /-- W1, the kept tweak (R39). -/
  w1 : Option Block
  /-- CC, the intermediate block (R39). -/
  cc : Option Block
  /-- TAIL (R39). -/
  tail : Option Bytes
  /-- The block holding register (R39). -/
  blk : Option Block
  /-- The buffer memory (R43). -/
  mem : Memory
  /-- Model's own: how many free values have been drawn. Log 6. -/
  draws : Nat
  /-- Model's own: buffers the host may not touch yet (R222, R223). Log 11. -/
  claims : List Claim
  /-- Model's own: what the outside world does next. Log 9. -/
  inputs : List Input
  /-- Model's own: what the host's reads returned, oldest first. Log 9. -/
  replies : List Reply
  deriving DecidableEq, Repr

/-- What stops the machine with a fault. No command does. -/
inductive Fault where
  /-- The host's own load or store names an address at or above 2^AW, which does not exist
  (spec/20_memory.md R54). Raised by the host actions `mem` and `dump`. Safe. Log 12. -/
  | noSuchAddress
  deriving DecidableEq, Repr

/-- What the model gives no transition. -/
inductive Refusal where
  /-- An instruction without a meaning. No arm of this model raises it. Safe. -/
  | notModelled (mnemonic : String)
  /-- The host stores into the source of a command in flight (spec/70_reset_and_hazards.md R222,
  spec/93_implementation_defined.md U5). Raised by the host action `mem`. Safe. Log 11. -/
  | sourceInFlight
  /-- The host loads from or stores into the destination of a command in flight (R223, U5).
  Raised by the host actions `mem` and `dump`. Safe. Log 11. -/
  | destinationInFlight
  deriving DecidableEq, Repr

/-- The machine after reset (R41). Registers R41 calls unspecified hold zero: DESIGN CHOICE, unsafe
(log 3). Memory lists nothing (log 4). -/
def State.reset : State where
  phase := .idle
  cmdReg := 0
  done := false
  err := false
  errCode := 0
  klen := 0
  sector := 0
  src := 0
  dst := 0
  len := 0
  dcap := 0
  t := 0
  key := []
  slots := none
  w := none
  w1 := none
  cc := none
  tail := none
  blk := none
  mem := []
  draws := 0
  claims := []
  inputs := []
  replies := []

end Sys2Proof.Machine
end

