-- ==== Sys2Proof/Machine/Flags.lean ====
section
/-! DEFINITION. The STATUS register, its flags and the error codes
(spec/10_state.md R36, R37; spec/60_exceptions.md R192). -/

namespace Sys2Proof.Machine

/-- `code(E)` (R192). -/
def CmdError.code : CmdError → BitVec 4
  | .invalidKeyLength => 1#4
  | .invalidInputLength => 2#4
  | .bufferTooSmall => 3#4
  | .illegalCommand => 4#4
  | .illegalState => 5#4
  | .illegalRange => 6#4

/-- STATUS.BUSY: 1 exactly when PHASE = BUSY (R21, R36). -/
def State.busy (s : State) : Bool := s.phase == .busy

/-- KEYED, STATUS bit 3: 1 exactly when both key slots hold a key (R32, R33). -/
def State.keyed (s : State) : Bool := s.slots.isSome

/-- K1 as the spec's optional slot (R33). -/
def State.k1 (s : State) : Option Bytes := s.slots.map KeyPair.k1

/-- K2 as the spec's optional slot (R33). -/
def State.k2 (s : State) : Option Bytes := s.slots.map KeyPair.k2

/-- The STATUS word: bits 31:8 zero, ERRCODE in 7:4, KEYED, ERR, DONE, BUSY in bits 3 to 0 (R36). -/
def State.status (s : State) : BitVec 32 :=
  0#24 ++ s.errCode ++ BitVec.ofBool s.keyed ++ BitVec.ofBool s.err ++ BitVec.ofBool s.done ++
    BitVec.ofBool s.busy

/-- The flags at issue: DONE, ERR and ERRCODE are cleared (R37, spec/30_encoding.md R77). -/
def clearFlags (s : State) : State := { s with done := false, err := false, errCode := 0#4 }

/-- The flags at completion: DONE set; ERR and ERRCODE written, the code when the command raised and
0 when it did not (R37). -/
def writeFlags (e : Option CmdError) (s : State) : State :=
  { s with done := true, err := e.isSome, errCode := (e.map CmdError.code).getD 0#4 }

end Sys2Proof.Machine
end

