-- ==== Sys2Proof/Machine/Ops.lean ====
section
/-! DEFINITION. The named operations over memory and registers, the end of a command, and raising an
error (spec/20_memory.md R55, R56; spec/30_encoding.md R78; spec/60_exceptions.md R185, R194). -/

namespace Sys2Proof.Machine

/-! ### Memory in canonical form -/

/-- What an unlisted address reads as: 0x00. DESIGN CHOICE, unsafe (log 4; for KEY log 3). -/
def Memory.unlisted : Byte := 0#8

/-- Every address listed is at least `lo`, addresses rise strictly, and no entry holds what an
unlisted address reads as. -/
def Memory.wfFrom : Nat → Memory → Bool
  | _, [] => true
  | lo, (k, v) :: t => decide (lo ≤ k) && v != Memory.unlisted && Memory.wfFrom (k + 1) t

/-- The canonical form: equal memories are equal lists. -/
def Memory.wf (m : Memory) : Bool := Memory.wfFrom 0 m

/-- The byte at an address. -/
def Memory.byteAt : Memory → Nat → Byte
  | [], _ => Memory.unlisted
  | (k, v) :: t, a => if a = k then v else Memory.byteAt t a

/-- Put an entry at the front of a list whose addresses are greater, unless it is not listed. -/
def Memory.cons (a : Nat) (b : Byte) (t : Memory) : Memory :=
  if b = Memory.unlisted then t else (a, b) :: t

/-- Set the byte at an address, keeping the canonical form. -/
def Memory.put : Memory → Nat → Byte → Memory
  | [], a, b => Memory.cons a b []
  | (k, v) :: t, a, b =>
    if a < k then Memory.cons a b ((k, v) :: t)
    else if a = k then Memory.cons a b t
    else (k, v) :: Memory.put t a b

/-- `MemRead(a, n)`: the `n` bytes from address `a` (R55). -/
def memRead (m : Memory) (a n : Nat) : Bytes := (List.range n).map fun i => m.byteAt (a + i)

/-- `MemWrite(a, len(v), v)`: byte `v[i]` goes to address `a + i` (R56). -/
def memWrite (m : Memory) (a : Nat) : Bytes → Memory
  | [] => m
  | b :: t => memWrite (m.put a b) (a + 1) t

/-! ### Free values -/

/-- `n` free bytes of one draw (log 6). -/
def freeBytes (hw : Hw) (draw n : Nat) : Bytes := (List.range n).map (hw.freeByte draw)

/-! ### Registers -/

/-- `T <- b` (spec/00_scope.md R16). -/
def State.setT (s : State) (b : Block) : State := { s with t := b }

/-- Fill or empty both key slots, and with them KEYED, in one step (spec/10_state.md R33). -/
def State.setSlots (s : State) (k : Option KeyPair) : State := { s with slots := k }

/-- Replace the buffer memory. -/
def State.setMem (s : State) (m : Memory) : State := { s with mem := m }

/-- One more free draw is used up. -/
def State.drawn (s : State) : State := { s with draws := s.draws + 1 }

/-! ### The end of a command -/

/-- W, W1, CC, TAIL and the block holding register `<- empty` (spec/30_encoding.md R78). -/
def emptyWork (s : State) : State :=
  { s with w := none, w1 := none, cc := none, tail := none, blk := none }

/-- PHASE `<-` IDLE (R78). -/
def toIdle (s : State) : State := { s with phase := .idle }

/-- The end of `Complete` (R78): the flags are written, the working registers emptied and the phase
returns to IDLE. -/
def finish (e : Option CmdError) (s : State) : State := toIdle (emptyWork (writeFlags e s))

/-- A command ends ok (spec/60_exceptions.md R185). -/
def endOk (s : State) : State := finish none s

/-- `raise E`: the entry sequence of an error (spec/60_exceptions.md R194), on a state in which none
of the command's own changes has been made (R185). Nothing is saved and there is nothing to return
from: the error is cleared by the next issue (R197, `issue` of Machine/Sequencer.lean). -/
def raise (e : CmdError) (s : State) : State := finish (some e) s

end Sys2Proof.Machine
end

