-- ==== Sys2Proof/Machine/Operands.lean ====
section
/-! DEFINITION. The operands commands assemble from registers: address-wide registers, the seed
block, the key halves, block count and remainder, and the buffer checks
(spec/30_encoding.md R80, R81; spec/20_memory.md R58, R59). -/

namespace Sys2Proof.Machine

/-- `2^AW`, one more than the highest buffer-memory address (spec/20_memory.md R54). -/
def addrSpace (hw : Hw) : Nat := 2 ^ hw.aw

/-- KMAX: the largest member of `BC.KEYLENS` (spec/00_scope.md R10). -/
def kmax (hw : Hw) : Nat := hw.keyLens.foldr max 0

/-- The number of bytes of KEY: `2*KMAX` (spec/10_state.md R34). -/
def keyBytes (hw : Hw) : Nat := 2 * kmax hw

/-- `h` is in `BC.KEYLENS`; 0 never is (spec/44_construct_lifecycle.md R156). -/
def supportsLen (hw : Hw) (h : Nat) : Bool := h != 0 && hw.keyLens.contains h

/-- A value as an AW-bit register holds it: higher bits are dropped (spec/20_memory.md R50). -/
def addrReg (hw : Hw) (v : Nat) : BitVec 64 := BitVec.ofNat 64 (v % addrSpace hw)

/-- The AW bits of an address-wide register. -/
def addrVal (hw : Hw) (r : BitVec 64) : Nat := r.toNat % addrSpace hw

/-- SRC (spec/10_state.md R27). -/
def State.srcAddr (hw : Hw) (s : State) : Nat := addrVal hw s.src

/-- DST (R28). -/
def State.dstAddr (hw : Hw) (s : State) : Nat := addrVal hw s.dst

/-- LEN (R29). -/
def State.lenVal (hw : Hw) (s : State) : Nat := addrVal hw s.len

/-- DCAP (R30). -/
def State.dcapVal (hw : Hw) (s : State) : Nat := addrVal hw s.dcap

/-- The end of the destination range an error or a reset may leave unspecified:
`min(DST + DCAP, 2^AW)` (spec/60_exceptions.md R196). -/
def State.dstEnd (hw : Hw) (s : State) : Nat :=
  min (s.dstAddr hw + s.dcapVal hw) (addrSpace hw)

/-- The bytes of `Seed(S) = LE64(S)` then eight zero bytes (spec/41_tweakgen.md R110). -/
def seedBytes (sector : BitVec 64) : Bytes := le64Bytes sector ++ List.replicate 8 0#8

/-- `Seed(S)` as a block (R110). -/
def seed (sector : BitVec 64) : Block := blockOfBytes (seedBytes sector)

/-- `h = KLEN div 2` (spec/44_construct_lifecycle.md R155). -/
def State.halfLen (s : State) : Nat := s.klen.toNat / 2

/-- The two key halves `KEY[0..h)` and `KEY[h..2h)` (R155, R156). -/
def State.keyHalves (s : State) : KeyPair :=
  ⟨memRead s.key 0 s.halfLen, memRead s.key s.halfLen s.halfLen⟩

/-- `n = len div 16` (spec/42_xts_encrypt.md R122). -/
def blockCount (len : Nat) : Nat := len / 16

/-- `rem = len mod 16` (R122). -/
def remainder (len : Nat) : Nat := len % 16

/-- How many blocks take the regular path: all of them when `rem = 0`, else all but the last
(spec/42_xts_encrypt.md R126). -/
def regularCount (len : Nat) : Nat :=
  if remainder len = 0 then blockCount len else blockCount len - 1

/-- A buffer wraps past the top of the address space (spec/20_memory.md R58). -/
def wraps (hw : Hw) (base size : Nat) : Bool := decide (addrSpace hw < base + size)

/-- Source and destination overlap without being the same buffer (spec/20_memory.md R59). -/
def overlaps (src len dst dcap : Nat) : Bool :=
  decide (dst ≠ src) && decide (src < dst + dcap) && decide (dst < src + len)

/-- The checks of XTS.ENC and XTS.DEC after the state check, in order
(spec/42_xts_encrypt.md R127, spec/43_xts_decrypt.md R145, spec/60_exceptions.md R193). -/
def bufferError (hw : Hw) (s : State) : Option CmdError :=
  if s.lenVal hw < 16 then some .invalidInputLength
  else if s.dcapVal hw < s.lenVal hw then some .bufferTooSmall
  else if wraps hw (s.srcAddr hw) (s.lenVal hw) || wraps hw (s.dstAddr hw) (s.dcapVal hw) then
    some .illegalRange
  else if overlaps (s.srcAddr hw) (s.lenVal hw) (s.dstAddr hw) (s.dcapVal hw) then
    some .illegalRange
  else none

/-- The errors after which the destination is unspecified: the two buffer errors
(spec/60_exceptions.md R196, spec/93_implementation_defined.md U1). -/
def CmdError.spoilsDst : CmdError → Bool
  | .invalidInputLength | .bufferTooSmall => true
  | .invalidKeyLength | .illegalCommand | .illegalState | .illegalRange => false

/-- Every byte at `DST <= a < min(DST+DCAP, 2^AW)` takes a free value (R196, U1, U11; log 7). -/
def spoilDst (hw : Hw) (s : State) : State :=
  (s.setMem (memWrite s.mem (s.dstAddr hw)
    (freeBytes hw s.draws (s.dstEnd hw - s.dstAddr hw)))).drawn

end Sys2Proof.Machine
end

