-- ==== Sys2Proof/Machine/Lifecycle.lean ====
section
/-! DEFINITION. Construction from key material and destruction, XTS.NEW and XTS.DROP
(spec/44_construct_lifecycle.md R155 to R161). -/

namespace Sys2Proof.Machine

/-- The key material in KEY is acceptable: KLEN is even, its half is a supported length and the
cipher accepts both halves (R155, R156, spec/60_exceptions.md R186). -/
def keyMaterialOk (hw : Hw) (s : State) : Bool :=
  s.klen.toNat % 2 == 0 && supportsLen hw s.halfLen && hw.keyOk s.keyHalves.k1 &&
    hw.keyOk s.keyHalves.k2

/-- `Exec_XTS_NEW` (R156) on a given hardware. -/
def xtsNewOn (hw : Hw) (s : State) : State :=
  match s.slots with
  | some _ => raise .illegalState s
  | none =>
    if keyMaterialOk hw s then endOk (s.setSlots (some s.keyHalves))
    else raise .invalidKeyLength s

/-- XTS.NEW (R156). -/
def execXtsNew (s : State) : Host.Outcome State Fault Refusal := .next (xtsNewOn Config.hw s)

/-- `Exec_XTS_DROP: K1 <- empty ; K2 <- empty ; KEYED <- 0 ; return ok` (R159). -/
def execXtsDrop (s : State) : Host.Outcome State Fault Refusal :=
  .next (endOk (s.setSlots none))

end Sys2Proof.Machine
end

