-- ==== Sys2Proof/Machine/Gf128.lean ====
section
/-! DEFINITION. GF128: multiplication by alpha, and GF.MULA (spec/40_gf128.md R100 to R105). -/

namespace Sys2Proof.Machine

/-- `mask8(c)`: 0xFF if `c = 1`, 0x00 if `c = 0` (R100). -/
def mask8 (c : BitVec 1) : Byte := c.signExtend 8

/-- `MulAlpha(t)` (R100): shift the two little-endian 64-bit words left by one bit as one 128-bit
value, and fold the carry back as 0x87 into byte 0. -/
def mulAlpha (t : Block) : Block :=
  let lo : BitVec 64 := t.extractLsb' 0 64
  let hi : BitVec 64 := t.extractLsb' 64 64
  let c : BitVec 1 := hi.extractLsb' 63 1
  let hi' : BitVec 64 := hi.extractLsb' 0 63 ++ lo.extractLsb' 63 1
  let lo' : BitVec 64 := lo.extractLsb' 0 63 ++ 0#1
  (hi' ++ lo') ^^^ (0x87#8 &&& mask8 c).setWidth 128

/-- The inverse procedure of R104; no command computes it. -/
def mulAlphaInv (r : Block) : Block :=
  let c : BitVec 1 := r.extractLsb' 0 1
  let s : Block := r ^^^ (0x87#8 &&& mask8 c).setWidth 128
  c ++ s.extractLsb' 1 127

/-- `Exec_GF_MULA: T <- MulAlpha(T) ; return ok` (R101). -/
def execGfMula (s : State) : Host.Outcome State Fault Refusal :=
  .next (endOk (s.setT (mulAlpha s.t)))

end Sys2Proof.Machine
end

