-- ==== Sys2Proof/Machine/TweakGenerator.lean ====
section
/-! DEFINITION. TweakGenerator: the initial tweak and its advance, TW.INIT and TW.ADV
(spec/41_tweakgen.md R110 to R115). -/

namespace Sys2Proof.Machine

/-- `TweakInitial(S) = BC.enc(K2, Seed(S))`, for both directions (R111). -/
def tweakInitial (hw : Hw) (k : KeyPair) (sector : BitVec 64) : Block := hw.enc k.k2 (seed sector)

/-- `advance(tweak)` (R113). -/
def advance (t : Block) : Block := mulAlpha t

/-- `T_j`, the tweak of block `j` (R114). -/
def tweakAt (t0 : Block) : Nat → Block
  | 0 => t0
  | j + 1 => advance (tweakAt t0 j)

/-- `Exec_TW_INIT` (R112) on a given hardware. -/
def twInitOn (hw : Hw) (s : State) : State :=
  match s.slots with
  | none => raise .illegalState s
  | some k => endOk (s.setT (tweakInitial hw k s.sector))

/-- TW.INIT (R112). -/
def execTwInit (s : State) : Host.Outcome State Fault Refusal := .next (twInitOn Config.hw s)

/-- `Exec_TW_ADV: T <- MulAlpha(T) ; return ok` (R113). -/
def execTwAdv (s : State) : Host.Outcome State Fault Refusal :=
  .next (endOk (s.setT (advance s.t)))

end Sys2Proof.Machine
end

