-- ==== Sys2Proof/Machine/XtsCipher.lean ====
section
/-! DEFINITION. XTSCipher: one sector encrypted or decrypted, with ciphertext stealing, XTS.ENC and
XTS.DEC (spec/42_xts_encrypt.md R120 to R129, spec/43_xts_decrypt.md R140 to R146). The stealing
arrangement is that of R125 and R143 (spec/90_conflicts.md C1; log 15). -/

namespace Sys2Proof.Machine

/-- The XEX step around a block function: `XEX_E` of R121 with `Enc1`, `XEX_D` of R141 with `Dec1`. -/
def xex (f : Block → Block) (t b : Block) : Block := xor16 (f (xor16 b t)) t

/-- The loop of R126 and R144 over `k` blocks from tweak `w`: the output bytes, and the working
tweak after the last block. -/
def xexBlocks (f : Block → Block) : Nat → Block → Bytes → Bytes × Block
  | 0, w, _ => ([], w)
  | k + 1, w, src =>
    let rest := xexBlocks f k (advance w) (src.drop 16)
    (blockBytes (xex f w (blockOfBytes (src.take 16))) ++ rest.1, rest.2)

/-- The final `16 + rem` bytes of a partial sector when encrypting, with `w = T_{n-1}` (R125). -/
def stealEnc (f : Block → Block) (w last : Block) (tail : Bytes) : Bytes :=
  let cc := blockBytes (xex f w last)
  let pp := tail ++ cc.drop tail.length
  blockBytes (xex f (advance w) (blockOfBytes pp)) ++ cc.take tail.length

/-- The final `16 + rem` bytes of a partial sector when decrypting, with `w = T_{n-1}` (R143). -/
def stealDec (f : Block → Block) (w last : Block) (tail : Bytes) : Bytes :=
  let pp := blockBytes (xex f (advance w) last)
  let cc := tail ++ pp.drop tail.length
  blockBytes (xex f w (blockOfBytes cc)) ++ pp.take tail.length

/-- A whole sector from initial tweak `t0`: the regular path, then the stealing path when
`rem > 0` (R126, R144). -/
def xtsSector (f : Block → Block) (steal : Block → Block → Bytes → Bytes) (t0 : Block)
    (src : Bytes) : Bytes :=
  let n := blockCount src.length
  let body := xexBlocks f (regularCount src.length) t0 src
  if remainder src.length = 0 then body.1
  else
    body.1 ++ steal body.2 (blockOfBytes (slice src (16 * (n - 1)) 16)) (src.drop (16 * n))

/-- `XTSEnc(S, src)` (R126). -/
def xtsEnc (hw : Hw) (k : KeyPair) (sector : BitVec 64) (src : Bytes) : Bytes :=
  xtsSector (hw.enc k.k1) (stealEnc (hw.enc k.k1)) (tweakInitial hw k sector) src

/-- `XTSDec(S, src)` (R144). -/
def xtsDec (hw : Hw) (k : KeyPair) (sector : BitVec 64) (src : Bytes) : Bytes :=
  xtsSector (hw.dec k.k1) (stealDec (hw.dec k.k1)) (tweakInitial hw k sector) src

/-- The memory after a sector command that ends ok: the result at `[DST .. DST+LEN)` and free bytes
in the slack `[DST+LEN .. DST+DCAP)`, the source having been read first (spec/20_memory.md R62, R63;
log 7). -/
def sectorMem (hw : Hw) (xts : Bytes → Bytes) (s : State) : Memory :=
  memWrite
    (memWrite s.mem (s.dstAddr hw) (xts (memRead s.mem (s.srcAddr hw) (s.lenVal hw))))
    (s.dstAddr hw + s.lenVal hw)
    (freeBytes hw s.draws (s.dcapVal hw - s.lenVal hw))

/-- The body shared by XTS.ENC (R127) and XTS.DEC (R145): the state check, the buffer checks, then
the transformation `xts` of key slots, sector and source bytes. -/
def sectorCommand (hw : Hw) (xts : KeyPair → BitVec 64 → Bytes → Bytes) (s : State) : State :=
  match s.slots with
  | none => raise .illegalState s
  | some k =>
    match bufferError hw s with
    | some e => raise e (if e.spoilsDst then spoilDst hw s else s)
    | none => endOk ((s.setMem (sectorMem hw (xts k s.sector) s)).drawn)

/-- `Exec_XTS_ENC` (R127) on a given hardware. -/
def xtsEncOn (hw : Hw) (s : State) : State := sectorCommand hw (xtsEnc hw) s

/-- XTS.ENC (R127). -/
def execXtsEnc (s : State) : Host.Outcome State Fault Refusal := .next (xtsEncOn Config.hw s)

/-- `Exec_XTS_DEC` (R145) on a given hardware. -/
def xtsDecOn (hw : Hw) (s : State) : State := sectorCommand hw (xtsDec hw) s

/-- XTS.DEC (R145). -/
def execXtsDec (s : State) : Host.Outcome State Fault Refusal := .next (xtsDecOn Config.hw s)

end Sys2Proof.Machine
end

