-- ==== Sys2Proof/Machine/Dispatch.lean ====
section
/-! DEFINITION. One arm per command (spec/30_encoding.md R76, R78). -/

namespace Sys2Proof.Machine

def exec (i : Instr) (s : State) : Host.Outcome State Fault Refusal :=
  match i with
  | .xtsNew => Sys2Proof.Machine.execXtsNew s
  | .xtsEnc => Sys2Proof.Machine.execXtsEnc s
  | .xtsDec => Sys2Proof.Machine.execXtsDec s
  | .gfMula => Sys2Proof.Machine.execGfMula s
  | .twInit => Sys2Proof.Machine.execTwInit s
  | .twAdv => Sys2Proof.Machine.execTwAdv s
  | .xtsDrop => Sys2Proof.Machine.execXtsDrop s

end Sys2Proof.Machine
end

