-- ==== Sys2Proof/WellFormed.lean ====
section
/-! DEFINITION. When a command word's fields are well formed (spec/30_encoding.md R75, R79), and
when a host script line is one R84 and R86 give a form to. -/

namespace Sys2Proof

/-- The reserved field is written as zero (R75). -/
def Cmd32.zeroOk (c : Cmd32) : Bool := c.zero == 0#28

/-- The opcode is one of the seven (R76): not 0x0 and not in 0x8 .. 0xF (R79). -/
def Cmd32.opOk (c : Cmd32) : Bool := c.op != 0#4 && decide (c.op.toNat < 8)

/-- A word of format CMD32 that is not illegal (R79). -/
def Cmd32.wellFormed (c : Cmd32) : Bool := c.zeroOk && c.opOk

/-- The CMD32 fields of each command (R76). -/
def Instr.fields : Instr → Cmd32
  | .xtsNew => ⟨0x1#4, 0#28⟩
  | .xtsEnc => ⟨0x2#4, 0#28⟩
  | .xtsDec => ⟨0x3#4, 0#28⟩
  | .gfMula => ⟨0x4#4, 0#28⟩
  | .twInit => ⟨0x5#4, 0#28⟩
  | .twAdv => ⟨0x6#4, 0#28⟩
  | .xtsDrop => ⟨0x7#4, 0#28⟩

/-- A command is well formed when its fields are; commands have no operands, so each is. -/
abbrev Instr.WellFormed (i : Instr) : Prop := i.fields.wellFormed = true

/-- The registers a scalar line may name (R24, R84). -/
def Reg.isScalar : Reg → Bool
  | .t | .key => false
  | .cmd | .status | .klen | .sector | .src | .dst | .len | .dcap => true

/-- A script line names a register of the kind its form asks for (R84). -/
def ScriptLine.wellFormed : ScriptLine → Bool
  | .wr r _ => r.isScalar
  | .wrb r _ _ => !r.isScalar
  | .rd r => r.isScalar
  | .rdb r => !r.isScalar
  | .cmd _ | .cmdWord _ | .wait | .mem _ _ | .dump _ _ | .run _ | .runWord _ | .loadkey _
  | .setbuf _ _ _ _ | .inplace _ _ | .rekey _ => true

end Sys2Proof
end

