-- ==== Sys2Proof/Decode.lean ====
section
/-! DEFINITION. The decoder of command words, total on every 32-bit word and refusing by name, and
the encoder (spec/30_encoding.md R75, R76, R78, R79). -/

namespace Sys2Proof

/-- Why a word is illegal (R79). -/
inductive DecodeError where
  /-- `w[31:4] != 0`. -/
  | reservedBitsSet
  /-- `w[3:0]` is 0x0 or in 0x8 .. 0xF. -/
  | reservedOpcode (op : BitVec 4)
  deriving DecidableEq, Repr

/-- `w[3:0]` and `w[31:4]` (R75). -/
def cmdFields (w : BitVec 32) : Cmd32 := ⟨w.extractLsb' 0 4, w.extractLsb' 4 28⟩

/-- The opcode map (R76). -/
def opcodeInstr (op : BitVec 4) : Option Instr :=
  match op.toNat with
  | 1 => some .xtsNew
  | 2 => some .xtsEnc
  | 3 => some .xtsDec
  | 4 => some .gfMula
  | 5 => some .twInit
  | 6 => some .twAdv
  | 7 => some .xtsDrop
  | _ => none

/-- Decoding as `Complete` does it: the reserved bits first, then the opcode (R78, R79). -/
def decode (w : BitVec 32) : Except DecodeError Instr :=
  let c := cmdFields w
  if c.zero != 0#28 then .error .reservedBitsSet
  else
    match opcodeInstr c.op with
    | some i => .ok i
    | none => .error (.reservedOpcode c.op)

/-- The word of a command: `ZERO` above `OP` (R75, R76). -/
def encode (i : Instr) : BitVec 32 := i.fields.zero ++ i.fields.op

/-- The instruction the decoder reads from the table's bits: a command is one 32-bit word, and
`HostWrite(0, v)` issues `v[31:0]` (R77, spec/20_memory.md R50). -/
def decodeTableWord (nbits w : Nat) : Option Instr :=
  match decode (BitVec.ofNat 32 (w % 2 ^ nbits)) with
  | .ok i => some i
  | .error _ => none

end Sys2Proof
end

