-- ==== Sys2Proof/Machine/Sequencer.lean ====
section
/-! DEFINITION. Issue of a command, the claims it lays on buffers, and the reset event
(spec/30_encoding.md R77; spec/70_reset_and_hazards.md R215, R216, R222, R223). -/

namespace Sys2Proof.Machine

/-- A command word that accesses buffer memory: XTS.ENC or XTS.DEC (spec/20_memory.md R63). -/
def usesBuffers (w : BitVec 32) : Bool :=
  match decode w with
  | .ok .xtsEnc | .ok .xtsDec => true
  | .ok .xtsNew | .ok .gfMula | .ok .twInit | .ok .twAdv | .ok .xtsDrop => false
  | .error _ => false

/-- The buffers the operand registers name (R222, R223). -/
def State.currentClaim (hw : Hw) (s : State) : Claim :=
  ⟨s.srcAddr hw, s.lenVal hw, s.dstAddr hw, s.dcapVal hw⟩

/-- The model's record of the buffers of the command being issued (log 11). -/
def addClaim (hw : Hw) (w : BitVec 32) (s : State) : State :=
  { s with claims := if usesBuffers w then s.currentClaim hw :: s.claims else s.claims }

/-- CMDREG `<- w` and PHASE `<-` BUSY. -/
def startCommand (w : BitVec 32) (s : State) : State := { s with cmdReg := w, phase := .busy }

/-- `Issue(w)` (R77): the word is captured, DONE, ERR and ERRCODE are cleared and PHASE becomes
BUSY. The word is not decoded into an effect and issue never fails. -/
def issue (hw : Hw) (w : BitVec 32) (s : State) : State :=
  startCommand w (clearFlags (addClaim hw w s))

/-- Every register R41 calls unspecified takes a free value (R41, R42, U3; log 5). -/
def freeRegisters (hw : Hw) (s : State) : State :=
  { s with
    cmdReg := BitVec.ofNat 32 (hw.freeNat s.draws)
    klen := BitVec.ofNat 32 (hw.freeNat (s.draws + 1))
    sector := BitVec.ofNat 64 (hw.freeNat (s.draws + 2))
    src := addrReg hw (hw.freeNat (s.draws + 3))
    dst := addrReg hw (hw.freeNat (s.draws + 4))
    len := addrReg hw (hw.freeNat (s.draws + 5))
    dcap := addrReg hw (hw.freeNat (s.draws + 6))
    t := BitVec.ofNat 128 (hw.freeNat (s.draws + 7))
    key := memWrite [] 0 (freeBytes hw (s.draws + 8) (keyBytes hw))
    draws := s.draws + 9 }

/-- A command that uses buffers is in flight. -/
def State.buffersInFlight (s : State) : Bool := s.busy && usesBuffers s.cmdReg

/-- The reset event (R215, R216): PHASE IDLE, STATUS zero, key slots and working registers empty,
every other register unspecified; buffer memory is kept, but the destination range of an abandoned
XTS.ENC or XTS.DEC is unspecified. The host's inputs and replies are not the core's and stay. -/
def resetEvent (hw : Hw) (s : State) : State :=
  let s := if s.buffersInFlight then spoilDst hw s else s
  freeRegisters hw
    { State.reset with mem := s.mem, draws := s.draws, inputs := s.inputs, replies := s.replies }

end Sys2Proof.Machine
end

