-- ==== Sys2Proof/Machine/HostPort.lean ====
section
/-! DEFINITION. The host port and the host's own memory accesses (spec/20_memory.md R50 to R53;
spec/30_encoding.md R84; spec/70_reset_and_hazards.md R222 to R224). -/

namespace Sys2Proof.Machine

/-- The width in bits of a register; a number that names no register has width 0
(spec/10_state.md R24; log 8). -/
def regWidth (hw : Hw) (r : Nat) : Nat :=
  match r with
  | 0 | 1 | 2 => 32
  | 3 => 64
  | 4 | 5 | 6 | 7 => hw.aw
  | 8 => 128
  | 9 => 8 * keyBytes hw
  | _ => 0

/-- `HostWrite(r, v)` (R50). -/
def hostWrite (hw : Hw) (r v : Nat) (s : State) : State :=
  if s.busy then s
  else
    match r with
    | 0 => issue hw (BitVec.ofNat 32 v) s
    | 2 => { s with klen := BitVec.ofNat 32 v }
    | 3 => { s with sector := BitVec.ofNat 64 v }
    | 4 => { s with src := addrReg hw v }
    | 5 => { s with dst := addrReg hw v }
    | 6 => { s with len := addrReg hw v }
    | 7 => { s with dcap := addrReg hw v }
    | _ => s

/-- `HostWriteByte(r, i, b)` (R51). -/
def hostWriteByte (hw : Hw) (r i : Nat) (b : Byte) (s : State) : State :=
  if s.busy then s
  else if r = 8 ∧ i < 16 then s.setT (blockSetByte s.t i b)
  else if r = 9 ∧ i < keyBytes hw then { s with key := s.key.put i b }
  else s

/-- The value a scalar register holds, as `HostRead` returns it in IDLE (R52). -/
def regValue (hw : Hw) (r : Nat) (s : State) : Nat :=
  match r with
  | 2 => s.klen.toNat
  | 3 => s.sector.toNat
  | 4 => s.srcAddr hw
  | 5 => s.dstAddr hw
  | 6 => s.lenVal hw
  | 7 => s.dcapVal hw
  | _ => 0

/-- What `HostRead(r)` returns (R52): STATUS in every phase; in BUSY a free value of the register's
width (U4; log 8). -/
def hostRead (hw : Hw) (r : Nat) (s : State) : Nat :=
  if r = 1 then s.status.toNat
  else if s.busy then hw.freeNat s.draws % 2 ^ regWidth hw r
  else regValue hw r s

/-- What `HostReadByte(r, i)` returns (R53). -/
def hostReadByte (hw : Hw) (r i : Nat) (s : State) : Byte :=
  if r = 8 ∧ i < 16 then
    if s.busy then hw.freeByte s.draws i else blockByte s.t i
  else 0#8

/-- The host keeps what a read returned; a read while BUSY has used up a draw. The core's own state
does not change (R52). -/
def reply (r : Reply) (s : State) : State :=
  { s with replies := s.replies ++ [r], draws := if s.busy then s.draws + 1 else s.draws }

/-- A STATUS read that returns BUSY = 0 ends the host's duty towards every command it has issued
(R222, R223, spec/20_memory.md R66). -/
def dropClaims (r : Nat) (s : State) : State :=
  { s with claims := if r = 1 ∧ s.busy = false then [] else s.claims }

/-- The ranges `[a .. a+n)` and `[b .. b+m)` share an address. -/
def rangesMeet (a n b m : Nat) : Bool :=
  decide (0 < n) && decide (0 < m) && decide (a < b + m) && decide (b < a + n)

/-- The host's own store (R84 `mem`): outside memory it faults; into a buffer the host may not touch
it is refused (R222, R223). -/
def hostStore (hw : Hw) (a : Nat) (bytes : Bytes) (s : State) : Host.Outcome State Fault Refusal :=
  if addrSpace hw < a + bytes.length then .fault .noSuchAddress
  else if s.claims.any fun c => rangesMeet a bytes.length c.src c.len then .refused .sourceInFlight
  else if s.claims.any fun c => rangesMeet a bytes.length c.dst c.dcap then
    .refused .destinationInFlight
  else .next (s.setMem (memWrite s.mem a bytes))

/-- The host's own load (R84 `dump`): outside memory it faults; from a destination in flight it is
refused (R223). -/
def hostLoad (hw : Hw) (a n : Nat) (s : State) : Host.Outcome State Fault Refusal :=
  if addrSpace hw < a + n then .fault .noSuchAddress
  else if s.claims.any fun c => rangesMeet a n c.dst c.dcap then .refused .destinationInFlight
  else .next { s with replies := s.replies ++ [.bytes a (memRead s.mem a n)] }

/-- One action of the host. -/
def hostAct (hw : Hw) (a : HostAction) (s : State) : Host.Outcome State Fault Refusal :=
  match a with
  | .write r v => .next (hostWrite hw r v s)
  | .writeByte r i b => .next (hostWriteByte hw r i b s)
  | .read r => .next (dropClaims r (reply (.scalar r (hostRead hw r s)) s))
  | .readByte r i => .next (reply (.byte r i (hostReadByte hw r i s)) s)
  | .mem a bytes => hostStore hw a bytes s
  | .dump a n => hostLoad hw a n s

end Sys2Proof.Machine
end

