-- ==== Sys2Proof/Machine/Engine.lean ====
section
/-! DEFINITION. The engine's step `Complete` and the interleaving of engine, host and reset
(spec/30_encoding.md R78; spec/70_reset_and_hazards.md R218, R220). -/

namespace Sys2Proof.Machine

/-- `Complete` (R78): decode CMDREG; a legal word runs its command, an illegal one raises
IllegalCommand before anything else is looked at (spec/60_exceptions.md R189). -/
def complete (s : State) : Host.Outcome State Fault Refusal :=
  match decode s.cmdReg with
  | .ok i => exec i s
  | .error _ => .next (raise .illegalCommand s)

/-- The engine's turn: enabled exactly when PHASE = BUSY (R78); in IDLE nothing happens. -/
def engineTurn (s : State) : Host.Outcome State Fault Refusal :=
  if s.busy then complete s else .next s

/-- Take the first input off the list. -/
def State.popInput (s : State) : State := { s with inputs := s.inputs.tail }

/-- `wait` (spec/30_encoding.md R84): while BUSY the host polls and the engine, which moves after a
finite time (R220), takes its step; once IDLE the poll returns STATUS and the wait is over. Log 10. -/
def waitTurn (hw : Hw) (s : State) : Host.Outcome State Fault Refusal :=
  if s.busy then complete s else hostAct hw (.read 1) s.popInput

/-- What the next input does. With none left, the engine has its turn (R218, R220). -/
def nextInput (hw : Hw) (s : State) : Host.Outcome State Fault Refusal :=
  match s.inputs with
  | [] => engineTurn s
  | .engine :: _ => engineTurn s.popInput
  | .host a :: _ => hostAct hw a s.popInput
  | .wait :: _ => waitTurn hw s
  | .reset :: _ => .next (resetEvent hw s.popInput)

/-- The engine's turn comes next: nothing else is to come before it. -/
def State.engineNext (s : State) : Bool :=
  match s.inputs with
  | [] => true
  | .engine :: _ => true
  | .wait :: _ => s.busy
  | .host _ :: _ => false
  | .reset :: _ => false

/-- The state the engine's turn acts on: an explicit engine turn is used up, a wait stays. -/
def State.atEngineTurn (s : State) : State :=
  match s.inputs with
  | .engine :: _ => s.popInput
  | _ => s

/-- A command word put in flight as the host's write of CMD does it (R77), with the engine's turn
next. Log 9. -/
def placeCommand (hw : Hw) (w : BitVec 32) (s : State) : State :=
  { issue hw w s with inputs := .engine :: s.inputs }

end Sys2Proof.Machine
end

