-- ==== Sys2Proof/Machine/Step.lean ====
section
/-! DEFINITION. The step of the machine (spec/70_reset_and_hazards.md R218) and how the host's tests
place one instruction. -/

namespace Sys2Proof.Machine

/-- One transition: the next input, or the engine's step (R218). -/
def step (s : State) : Host.Outcome State Fault Refusal := nextInput Config.hw s

/-- `s` with the command word whose bits are `w` in flight, so that the next step completes it. The
core fetches no instruction from memory: a command is what the host's write of CMD captured in
CMDREG (spec/20_memory.md R69). Log 9. -/
def State.withFetchWord (s : State) (nbits w : Nat) : State :=
  placeCommand Config.hw (BitVec.ofNat 32 (w % 2 ^ nbits)) s

end Sys2Proof.Machine
end

