-- ==== Sys2Proof/Machine/Script.lean ====
section
/-! DEFINITION. The host script: register numbers, what each line does, the macros, and the tuple
encoding of port operations (spec/10_state.md R24; spec/30_encoding.md R84 to R86). -/

namespace Sys2Proof.Machine

/-- `no(REG)` (spec/10_state.md R24). -/
def regNumber : Reg → Nat
  | .cmd => 0
  | .status => 1
  | .klen => 2
  | .sector => 3
  | .src => 4
  | .dst => 5
  | .len => 6
  | .dcap => 7
  | .t => 8
  | .key => 9

/-- How many byte indices a byte-array register has; a scalar register has none (R24). -/
def byteCount (hw : Hw) : Reg → Nat
  | .t => 16
  | .key => keyBytes hw
  | .cmd | .status | .klen | .sector | .src | .dst | .len | .dcap => 0

/-- `wrb REG+k, hexbytes`: one `HostWriteByte` for each byte, indices rising from `k` (R84). -/
def writeBytes (r k : Nat) : Bytes → List Input
  | [] => []
  | b :: t => .host (.writeByte r k b) :: writeBytes r (k + 1) t

/-- `wr REG, value` (R84). -/
def writeReg (r : Reg) (v : Nat) : Input := .host (.write (regNumber r) v)

/-- `cmd MNEMONIC` (R84): the word of R76 written to CMD. -/
def issueCmd (i : Instr) : Input := writeReg .cmd (encode i).toNat

/-- `loadkey hexbytes` (R86). -/
def loadKey (bytes : Bytes) : List Input :=
  writeBytes (regNumber .key) 0 bytes ++ [writeReg .klen bytes.length]

/-- `setbuf s, d, l, c` (R86). -/
def setBuf (s d l c : Nat) : List Input :=
  [writeReg .src s, writeReg .dst d, writeReg .len l, writeReg .dcap c]

/-- `run MNEMONIC` (R86). -/
def runCmd (i : Instr) : List Input := [issueCmd i, .wait]

/-- What a line of a host script makes the outside world do (R84, R86). -/
def expandLine (hw : Hw) : ScriptLine → List Input
  | .wr r v => [writeReg r v]
  | .wrb r k bytes => writeBytes (regNumber r) k bytes
  | .cmd i => [issueCmd i]
  | .cmdWord v => [writeReg .cmd v]
  | .wait => [.wait]
  | .rd r => [.host (.read (regNumber r))]
  | .rdb r => (List.range (byteCount hw r)).map fun i => .host (.readByte (regNumber r) i)
  | .mem a bytes => [.host (.mem a bytes)]
  | .dump a n => [.host (.dump a n)]
  | .run i => runCmd i
  | .runWord v => [writeReg .cmd v, .wait]
  | .loadkey bytes => loadKey bytes
  | .setbuf s d l c => setBuf s d l c
  | .inplace s l => setBuf s s l l
  | .rekey bytes => runCmd .xtsDrop ++ loadKey bytes ++ runCmd .xtsNew

/-- A whole script; the last line's last action ends the run (spec/70_reset_and_hazards.md R219). -/
def expandScript (hw : Hw) (lines : List ScriptLine) : List Input := lines.flatMap (expandLine hw)

/-- A machine about to run a script. -/
def State.withScript (hw : Hw) (lines : List ScriptLine) (s : State) : State :=
  { s with inputs := expandScript hw lines }

/-- The tuple `(kind, r, i, v)` of a port operation, unused positions 0; the host's own memory
accesses have none (R85). -/
def portTuple : HostAction → Option (Nat × Nat × Nat × Nat)
  | .write r v => some (0, r, 0, v)
  | .writeByte r i b => some (1, r, i, b.toNat)
  | .read r => some (2, r, 0, 0)
  | .readByte r i => some (3, r, i, 0)
  | .mem _ _ | .dump _ _ => none

/-- The port operation of a tuple (R85); a tuple of another form stands for none. -/
def ofPortTuple : Nat × Nat × Nat × Nat → Option HostAction
  | (0, r, 0, v) => some (.write r v)
  | (1, r, i, v) => if v < 256 then some (.writeByte r i (BitVec.ofNat 8 v)) else none
  | (2, r, 0, 0) => some (.read r)
  | (3, r, i, 0) => some (.readByte r i)
  | _ => none

end Sys2Proof.Machine
end

