-- ==== Sys2Proof/Safety.lean ====
section
/-! DEFINITION. What statements about the machine speak of: how a command ends, what it leaves
alone, and the invariant of every run (spec/10_state.md R33, R36, R43; spec/30_encoding.md R80;
spec/60_exceptions.md R185, R192). -/

namespace Sys2Proof.Machine

/-! ### How a command ends -/

/-- W, W1, CC, TAIL and the block holding register hold nothing (spec/10_state.md R38, R39). -/
structure WorkEmpty (s : State) : Prop where
  w : s.w = none
  w1 : s.w1 = none
  cc : s.cc = none
  tail : s.tail = none
  blk : s.blk = none

/-- A command has ended ok: IDLE, DONE, no error, working registers empty (R78, R185). -/
structure EndedOk (t : State) : Prop where
  phase : t.phase = .idle
  done : t.done = true
  err : t.err = false
  errCode : t.errCode = 0#4
  work : WorkEmpty t

/-- A command has ended with error `e` (R78, R185, R192). -/
structure EndedWith (e : CmdError) (t : State) : Prop where
  phase : t.phase = .idle
  done : t.done = true
  err : t.err = true
  errCode : t.errCode = e.code
  work : WorkEmpty t

/-! ### What a command leaves alone -/

/-- The registers no command writes (R80), CMDREG (spec/60_exceptions.md R194), and the host's side:
its inputs, its replies and the claims on its buffers. -/
structure SameOperands (s t : State) : Prop where
  cmdReg : t.cmdReg = s.cmdReg
  klen : t.klen = s.klen
  sector : t.sector = s.sector
  src : t.src = s.src
  dst : t.dst = s.dst
  len : t.len = s.len
  dcap : t.dcap = s.dcap
  key : t.key = s.key
  claims : t.claims = s.claims
  inputs : t.inputs = s.inputs
  replies : t.replies = s.replies

/-- Every byte of buffer memory reads as before. -/
def SameMemory (s t : State) : Prop := ∀ a, t.mem.byteAt a = s.mem.byteAt a

/-- Every byte of buffer memory outside `[base .. top)` reads as before. -/
def SameMemoryOutside (base top : Nat) (s t : State) : Prop :=
  ∀ a, a < base ∨ top ≤ a → t.mem.byteAt a = s.mem.byteAt a

/-- Nothing of the core changed but STATUS, PHASE and the working registers. -/
structure OnlyStatus (s t : State) : Prop where
  operands : SameOperands s t
  tweak : t.t = s.t
  slots : t.slots = s.slots
  mem : SameMemory s t

/-! ### When a sector command runs -/

/-- The buffer conditions of XTS.ENC and XTS.DEC (spec/42_xts_encrypt.md R127): the lengths fit, no
buffer wraps (spec/20_memory.md R58), and the buffers are the same or apart (R59). -/
structure SectorReady (hw : Hw) (s : State) : Prop where
  len : 16 ≤ s.lenVal hw
  dcap : s.lenVal hw ≤ s.dcapVal hw
  srcTop : s.srcAddr hw + s.lenVal hw ≤ addrSpace hw
  dstTop : s.dstAddr hw + s.dcapVal hw ≤ addrSpace hw
  apart : s.dstAddr hw = s.srcAddr hw ∨ s.dstAddr hw + s.dcapVal hw ≤ s.srcAddr hw ∨
    s.srcAddr hw + s.lenVal hw ≤ s.dstAddr hw

/-- The commands that transform a sector. -/
def isSectorCommand (i : Instr) : Prop := i = .xtsEnc ∨ i = .xtsDec

/-! ### The invariant of every run -/

/-- What holds of every state a run reaches: memory and KEY in canonical form and inside their
address spaces (R34, R43), address-wide registers within AW bits (R24), filled key slots legal
(R33), STATUS one of its legal combinations (R36), the working registers empty (R38, R39), and the
buffers of a command in flight claimed (log 11). -/
structure Inv (hw : Hw) (s : State) : Prop where
  memWf : s.mem.wf = true
  memIn : ∀ c ∈ s.mem, c.1 < addrSpace hw
  keyWf : s.key.wf = true
  keyIn : ∀ c ∈ s.key, c.1 < keyBytes hw
  srcIn : s.src.toNat < addrSpace hw
  dstIn : s.dst.toNat < addrSpace hw
  lenIn : s.len.toNat < addrSpace hw
  dcapIn : s.dcap.toNat < addrSpace hw
  slotsOk : ∀ k, s.slots = some k →
    hw.keyOk k.k1 = true ∧ hw.keyOk k.k2 = true ∧ k.k1.length = k.k2.length
  busyClear : s.phase = .busy → s.done = false ∧ s.err = false ∧ s.errCode = 0#4
  errDone : s.err = true → s.done = true
  errCode : s.errCode ≠ 0#4 ↔ s.err = true
  codeUsed : s.errCode.toNat < 7
  work : WorkEmpty s
  claimed : s.buffersInFlight = true → s.currentClaim hw ∈ s.claims

/-- The next input is not an access of the host to its own memory: those alone can stop a run
(spec/70_reset_and_hazards.md R222, R223; spec/20_memory.md R54). -/
def portInputNext (s : State) : Bool :=
  match s.inputs with
  | .host (.mem _ _) :: _ => false
  | .host (.dump _ _) :: _ => false
  | _ => true

end Sys2Proof.Machine
end

