-- ==== Sys2Proof/Certificates/Slice0/Obligations.lean ====
section
/-! DEFINITION. The statements for the provers. Each docstring names the rules of spec/ it
formalises; OBLIGATIONS.json lists them. -/

open Sys2Proof Sys2Proof.Machine

/-! ### Encoding and the step -/

/-- The command word of each command, as the table of spec/30_encoding.md R76 writes it. -/
def commandWord : Instr → BitVec 32
  | .xtsNew => 0x00000001#32
  | .xtsEnc => 0x00000002#32
  | .xtsDec => 0x00000003#32
  | .gfMula => 0x00000004#32
  | .twInit => 0x00000005#32
  | .twAdv => 0x00000006#32
  | .xtsDrop => 0x00000007#32

/-- An illegal word (R79): a bit of 31:4 is set, or the opcode is 0x0 or in 0x8 .. 0xF. -/
def IllegalWord (w : BitVec 32) : Prop :=
  w.extractLsb' 4 28 ≠ 0#28 ∨ w.extractLsb' 0 4 = 0#4 ∨ 8 ≤ (w.extractLsb' 0 4).toNat

/-- R76, R79: the seven words decode to their commands, and words of spec/95_test_vectors.md V88 to
V92 are refused by name. -/
def Obligations.SevenCommandWordsDecode : Prop :=
  decode 0x00000001#32 = .ok .xtsNew ∧ decode 0x00000002#32 = .ok .xtsEnc ∧
  decode 0x00000003#32 = .ok .xtsDec ∧ decode 0x00000004#32 = .ok .gfMula ∧
  decode 0x00000005#32 = .ok .twInit ∧ decode 0x00000006#32 = .ok .twAdv ∧
  decode 0x00000007#32 = .ok .xtsDrop ∧
  decode 0x00000000#32 = .error (.reservedOpcode 0x0#4) ∧
  decode 0x00000008#32 = .error (.reservedOpcode 0x8#4) ∧
  decode 0x0000000F#32 = .error (.reservedOpcode 0xF#4) ∧
  decode 0x00000012#32 = .error .reservedBitsSet ∧ decode 0x80000001#32 = .error .reservedBitsSet

/-- R76: every 32-bit word is the word of exactly one command, or it is illegal (R79). -/
def Obligations.EveryWordIsOneCommandOrIllegal : Prop :=
  (∀ (w : BitVec 32) (i : Instr), decode w = .ok i ↔ w = commandWord i) ∧
  (∀ i : Instr, encode i = commandWord i) ∧
  (∀ w : BitVec 32, (∃ e, decode w = .error e) ↔ IllegalWord w)

/-- R189, R79: an illegal word in flight completes with IllegalCommand and nothing but STATUS
changes. -/
def Obligations.IllegalWordChangesOnlyStatus : Prop :=
  CmdError.illegalCommand.code = 4#4 ∧
  ∀ s : State, s.phase = .busy → s.engineNext = true → IllegalWord s.cmdReg →
    ∃ t, step s = .next t ∧ EndedWith .illegalCommand t ∧ OnlyStatus s.atEngineTurn t

/-- R78: when a command is in flight and the engine is next, the step runs the decoded command, on
the state as it is, or with an explicit engine turn used up. -/
def Obligations.StepRunsTheDecodedCommand : Prop :=
  ∀ (s : State) (i : Instr), s.phase = .busy → s.engineNext = true → decode s.cmdReg = .ok i →
    step s = exec i s.atEngineTurn ∧
    (s.atEngineTurn = s ∨
      ∃ rest, s.inputs = .engine :: rest ∧ s.atEngineTurn = { s with inputs := rest })

/-- A word placed for execution is issued and the very next step runs it. `withFetchWord` is the
model's own device (log 9), not the host's write of CMD: it issues whatever PHASE is, where R50 and
R77 ignore the write of CMD in BUSY. -/
def Obligations.PlacedWordRunsNext : Prop :=
  ∀ (s : State) (w : Nat) (i : Instr), decode (BitVec.ofNat 32 w) = .ok i →
    step (s.withFetchWord 32 w) = exec i (issue Config.hw (BitVec.ofNat 32 w) s)

/-! ### GF128 -/

/-- `poly(b)`: the polynomial over GF(2) a block stands for (spec/00_scope.md R17). -/
noncomputable def blockPoly (b : Block) : Polynomial (ZMod 2) :=
  ∑ k ∈ Finset.range 128, if b.getLsbD k then Polynomial.X ^ k else 0

/-- `x^128 + x^7 + x^2 + x + 1` (R17, R103). -/
noncomputable def fieldModulus : Polynomial (ZMod 2) :=
  Polynomial.X ^ 128 + Polynomial.X ^ 7 + Polynomial.X ^ 2 + Polynomial.X + 1

/-- R102: the byte-wise form of MulAlpha, and that its XOR is neither an OR nor an addition. -/
def Obligations.MulAlphaBytewise : Prop :=
  (∀ t : Block,
    (∀ i, 1 ≤ i → i < 16 →
      blockByte (mulAlpha t) i = (blockByte t i <<< 1) ||| (blockByte t (i - 1) >>> 7)) ∧
    blockByte (mulAlpha t) 0 =
      (blockByte t 0 <<< 1) ^^^ (if blockByte t 15 >>> 7 = 1#8 then 0x87#8 else 0x00#8)) ∧
  ∃ t : Block, blockByte t 15 >>> 7 = 1#8 ∧
    blockByte (mulAlpha t) 0 ≠ (blockByte t 0 <<< 1) ||| 0x87#8 ∧
    blockByte (mulAlpha t) 0 ≠ (blockByte t 0 <<< 1) + 0x87#8

/-- R103: MulAlpha is multiplication by `x` modulo `x^128 + x^7 + x^2 + x + 1`, and `x^128` is there
the block `87 00 .. 00`. -/
def Obligations.MulAlphaIsFieldMultiplicationByX : Prop :=
  (∀ t : Block, (Polynomial.X * blockPoly t) %ₘ fieldModulus = blockPoly (mulAlpha t)) ∧
  (Polynomial.X ^ 128) %ₘ fieldModulus = blockPoly 0x87#128 ∧
  blockPoly 0x87#128 = Polynomial.X ^ 7 + Polynomial.X ^ 2 + Polynomial.X + 1

/-- R104: MulAlpha is a bijection on 16-byte values, with the inverse procedure given there. -/
def Obligations.MulAlphaIsBijective : Prop :=
  Function.Bijective mulAlpha ∧
  (∀ t r : Block, mulAlpha t = r ↔ t = mulAlphaInv r) ∧
  ∀ t r : Block,
    (mulAlpha t = r ↔
      ∃ sh : Block, sh = r ^^^ (if r.getLsbD 0 then 0x87#128 else 0#128) ∧
        t = (sh >>> 1) ||| (if r.getLsbD 0 then 1#128 <<< 127 else 0#128))

/-- R105: the tweak of block `j` is the j-fold iterate; iterating from `01 00 .. 00` walks one bit
through the block and reduces at the 128th step. -/
def Obligations.MulAlphaIterates : Prop :=
  (∀ (t : Block) (j : Nat), tweakAt t j = mulAlpha^[j] t) ∧
  (∀ j, j < 128 → ∀ i, i < 16 →
    blockByte (mulAlpha^[j] 1#128) i = if i = j / 8 then 1#8 <<< (j % 8) else 0#8) ∧
  mulAlpha^[128] 1#128 = 0x87#128

/-- R101: GF.MULA multiplies T by alpha, with or without a key, and changes nothing else; with the
rule's worked example. -/
def Obligations.GfMulaMultipliesT : Prop :=
  (∀ s : State, ∃ t, exec .gfMula s = .next t ∧ EndedOk t ∧ t.t = mulAlpha s.t ∧
    SameOperands s t ∧ t.slots = s.slots ∧ SameMemory s t) ∧
  mulAlpha 0x80000000000000000000000000000001#128 = 0x85#128

/-! ### TweakGenerator -/

/-- R110: `Seed(S)` is `LE64(S)` followed by eight zero bytes, and is injective; with the rule's two
examples. -/
def Obligations.SeedIsLittleEndianSector : Prop :=
  (∀ (v : BitVec 64) (i : Nat), i < 16 →
    blockByte (seed v) i = if i < 8 then v.extractLsb' (8 * i) 8 else 0#8) ∧
  Function.Injective seed ∧
  blockBytes (seed 94#64) = [0x5e#8, 0, 0, 0, 0, 0, 0, 0, 0, 0, 0, 0, 0, 0, 0, 0] ∧
  blockBytes (seed 0x0123456789abcdef#64) =
    [0xef#8, 0xcd#8, 0xab#8, 0x89#8, 0x67#8, 0x45#8, 0x23#8, 0x01#8, 0, 0, 0, 0, 0, 0, 0, 0]

/-- R112: TW.INIT with a key puts `BC.enc(K2, Seed(SECTOR))` into T and changes nothing else. -/
def Obligations.TwInitDerivesInitialTweak : Prop :=
  ∀ (s : State) (k : KeyPair), s.slots = some k →
    ∃ t, exec .twInit s = .next t ∧ EndedOk t ∧
      t.t = Config.hw.enc k.k2 (blockOfBytes (le64Bytes s.sector ++ List.replicate 8 0#8)) ∧
      SameOperands s t ∧ t.slots = s.slots ∧ SameMemory s t

/-- R113: TW.ADV replaces T by MulAlpha(T) and changes nothing else. -/
def Obligations.TwAdvAdvancesT : Prop :=
  ∀ s : State, ∃ t, exec .twAdv s = .next t ∧ EndedOk t ∧ t.t = mulAlpha s.t ∧
    SameOperands s t ∧ t.slots = s.slots ∧ SameMemory s t

/-- R113, R114: TW.INIT and then `j` times TW.ADV leaves `T_j` in T. -/
def Obligations.TweakSequenceByCommands : Prop :=
  ∀ (s : State) (k : KeyPair), s.slots = some k →
    ∃ f : Nat → State, exec .twInit s = .next (f 0) ∧
      (∀ j, exec .twAdv (f j) = .next (f (j + 1))) ∧
      ∀ j, (f j).t = mulAlpha^[j] (Config.hw.enc k.k2 (seed s.sector))

/-- R171: under `BC.inverse` two different sectors have different tweaks at every block. That their
ciphertexts differ is not claimed. -/
def Obligations.TweaksOfDifferentSectorsDiffer : Prop :=
  ∀ (hw : Hw) (k : KeyPair) (S S' : BitVec 64), hw.Inverse → hw.keyOk k.k2 = true → S ≠ S' →
    seed S ≠ seed S' ∧
    ∀ j, tweakAt (tweakInitial hw k S) j ≠ tweakAt (tweakInitial hw k S') j

/-! ### Construction and destruction -/

/-- R156, R157: XTS.NEW in UNKEYED fills both slots from the two halves of the key material when
KLEN is twice a supported length and the cipher accepts both halves, and otherwise raises
InvalidKeyLength and leaves UNKEYED. -/
def Obligations.XtsNewConstructsBothKeysOrNone : Prop :=
  ∀ s : State, s.slots = none →
    ∃ t, exec .xtsNew s = .next t ∧ SameOperands s t ∧ t.t = s.t ∧ SameMemory s t ∧
      if s.klen.toNat % 2 = 0 ∧ s.klen.toNat / 2 ∈ Config.hw.keyLens ∧
          Config.hw.keyOk (memRead s.key 0 (s.klen.toNat / 2)) = true ∧
          Config.hw.keyOk (memRead s.key (s.klen.toNat / 2) (s.klen.toNat / 2)) = true then
        EndedOk t ∧ t.keyed = true ∧
        t.k1 = some (memRead s.key 0 (s.klen.toNat / 2)) ∧
        t.k2 = some (memRead s.key (s.klen.toNat / 2) (s.klen.toNat / 2))
      else EndedWith .invalidKeyLength t ∧ t.slots = none

/-- R156 on any lawful hardware: acceptable key material of `2h` bytes fills both slots, and the
bytes read lie inside KEY. XTS.NEW is that function on the machine's own hardware. -/
def Obligations.XtsNewSucceedsOnAnyHardware : Prop :=
  (∀ s : State, exec .xtsNew s = .next (xtsNewOn Config.hw s)) ∧
  ∀ (hw : Hw) (s : State) (h : Nat), hw.Lawful → s.slots = none → s.klen.toNat = 2 * h →
    h ∈ hw.keyLens → hw.keyOk (memRead s.key 0 h) = true → hw.keyOk (memRead s.key h h) = true →
    2 * h ≤ keyBytes hw ∧ EndedOk (xtsNewOn hw s) ∧
    (xtsNewOn hw s).slots = some ⟨memRead s.key 0 h, memRead s.key h h⟩ ∧
    SameOperands s (xtsNewOn hw s) ∧ (xtsNewOn hw s).t = s.t ∧ SameMemory s (xtsNewOn hw s)

/-- R159: XTS.DROP empties both slots in either operating state, ends ok and changes nothing
else. -/
def Obligations.XtsDropEmptiesSlots : Prop :=
  ∀ s : State, ∃ t, exec .xtsDrop s = .next t ∧ EndedOk t ∧ t.keyed = false ∧ t.k1 = none ∧
    t.k2 = none ∧ SameOperands s t ∧ t.t = s.t ∧ SameMemory s t

/-- R33, R158: a step changes the key slots only when XTS.NEW fills empty slots, when XTS.DROP
empties them, or on reset, which empties them. -/
def Obligations.KeySlotsChangeOnlyByNewDropReset : Prop :=
  ∀ s t : State, step s = .next t → t.slots ≠ s.slots →
    (s.phase = .busy ∧ s.engineNext = true ∧ s.cmdReg = commandWord .xtsNew ∧ s.slots = none) ∨
    (s.phase = .busy ∧ s.engineNext = true ∧ s.cmdReg = commandWord .xtsDrop ∧ t.slots = none) ∨
    ((∃ rest, s.inputs = .reset :: rest) ∧ t.slots = none)

/-! ### XTSCipher, the sector functions -/

/-- R121, R141: the XEX steps, and under `BC.inverse` each undoes the other. -/
def Obligations.XexStepsInvert : Prop :=
  (∀ (f : Block → Block) (t b : Block), xex f t b = f (b ^^^ t) ^^^ t) ∧
  ∀ (hw : Hw) (k : Bytes) (t b : Block), hw.Inverse → hw.keyOk k = true →
    xex (hw.dec k) t (xex (hw.enc k) t b) = b ∧ xex (hw.enc k) t (xex (hw.dec k) t b) = b

/-- R123, R124, R142: on whole blocks, block `j` of the output is the XEX step of block `j` of the
source under `T_j`; one block is the case `n = 1`. -/
def Obligations.RegularPathBlocks : Prop :=
  ∀ (hw : Hw) (k : KeyPair) (S : BitVec 64) (src : Bytes) (n j : Nat),
    src.length = 16 * n → j < n →
    slice (xtsEnc hw k S src) (16 * j) 16 =
      blockBytes (xex (hw.enc k.k1) (tweakAt (hw.enc k.k2 (seed S)) j)
        (blockOfBytes (slice src (16 * j) 16))) ∧
    slice (xtsDec hw k S src) (16 * j) 16 =
      blockBytes (xex (hw.dec k.k1) (tweakAt (hw.enc k.k2 (seed S)) j)
        (blockOfBytes (slice src (16 * j) 16)))

/-- R125: the ciphertext-stealing path. -/
def Obligations.StealingPathBlocks : Prop :=
  ∀ (hw : Hw) (k : KeyPair) (S : BitVec 64) (src : Bytes) (n rem : Nat),
    src.length = 16 * n + rem → 1 ≤ n → 0 < rem → rem < 16 →
    let T := tweakAt (hw.enc k.k2 (seed S))
    let E := xex (hw.enc k.k1)
    let out := xtsEnc hw k S src
    let CC := blockBytes (E (T (n - 1)) (blockOfBytes (slice src (16 * (n - 1)) 16)))
    let PP := slice src (16 * n) rem ++ CC.drop rem
    (∀ j, j < n - 1 → slice out (16 * j) 16 =
      blockBytes (E (T j) (blockOfBytes (slice src (16 * j) 16)))) ∧
    slice out (16 * (n - 1)) 16 = blockBytes (E (T n) (blockOfBytes PP)) ∧
    out.drop (16 * n) = CC.take rem

/-- R143: the inverse ciphertext-stealing path. -/
def Obligations.InverseStealingPathBlocks : Prop :=
  ∀ (hw : Hw) (k : KeyPair) (S : BitVec 64) (src : Bytes) (n rem : Nat),
    src.length = 16 * n + rem → 1 ≤ n → 0 < rem → rem < 16 →
    let T := tweakAt (hw.enc k.k2 (seed S))
    let D := xex (hw.dec k.k1)
    let out := xtsDec hw k S src
    let PP := blockBytes (D (T n) (blockOfBytes (slice src (16 * (n - 1)) 16)))
    let CC := slice src (16 * n) rem ++ PP.drop rem
    (∀ j, j < n - 1 → slice out (16 * j) 16 =
      blockBytes (D (T j) (blockOfBytes (slice src (16 * j) 16)))) ∧
    slice out (16 * (n - 1)) 16 = blockBytes (D (T (n - 1)) (blockOfBytes CC)) ∧
    out.drop (16 * n) = PP.take rem

/-- R172: both sector functions keep the length. -/
def Obligations.SectorFunctionsPreserveLength : Prop :=
  ∀ (hw : Hw) (k : KeyPair) (S : BitVec 64) (p : Bytes), 16 ≤ p.length →
    (xtsEnc hw k S p).length = p.length ∧ (xtsDec hw k S p).length = p.length

/-- R170: under `BC.inverse` decryption undoes encryption and encryption undoes decryption, for
every sector and every length of at least 16, so encryption permutes the sequences of a length. -/
def Obligations.DecryptUndoesEncrypt : Prop :=
  ∀ (hw : Hw) (k : KeyPair) (S : BitVec 64), hw.Inverse → hw.keyOk k.k1 = true →
    (∀ p : Bytes, 16 ≤ p.length →
      xtsDec hw k S (xtsEnc hw k S p) = p ∧ xtsEnc hw k S (xtsDec hw k S p) = p) ∧
    ∀ L, 16 ≤ L → Set.BijOn (xtsEnc hw k S) {p | p.length = L} {p | p.length = L}

/-! ### XTSCipher, the commands -/

/-- R127: with a key and buffers in order XTS.ENC completes: the ciphertext of the source bytes
stands at `[DST .. DST+LEN)`, nothing outside `[DST .. DST+DCAP)` is written, and every register,
T and the key slots keep their values. -/
def Obligations.XtsEncEncryptsSector : Prop :=
  ∀ (s : State) (k : KeyPair), s.mem.wf = true → s.slots = some k → SectorReady Config.hw s →
    ∃ t, exec .xtsEnc s = .next t ∧ EndedOk t ∧
      memRead t.mem (s.dstAddr Config.hw) (s.lenVal Config.hw) =
        xtsEnc Config.hw k s.sector
          (memRead s.mem (s.srcAddr Config.hw) (s.lenVal Config.hw)) ∧
      SameMemoryOutside (s.dstAddr Config.hw) (s.dstAddr Config.hw + s.dcapVal Config.hw) s t ∧
      SameOperands s t ∧ t.t = s.t ∧ t.slots = s.slots

/-- R145: the same of XTS.DEC. -/
def Obligations.XtsDecDecryptsSector : Prop :=
  ∀ (s : State) (k : KeyPair), s.mem.wf = true → s.slots = some k → SectorReady Config.hw s →
    ∃ t, exec .xtsDec s = .next t ∧ EndedOk t ∧
      memRead t.mem (s.dstAddr Config.hw) (s.lenVal Config.hw) =
        xtsDec Config.hw k s.sector
          (memRead s.mem (s.srcAddr Config.hw) (s.lenVal Config.hw)) ∧
      SameMemoryOutside (s.dstAddr Config.hw) (s.dstAddr Config.hw + s.dcapVal Config.hw) s t ∧
      SameOperands s t ∧ t.t = s.t ∧ t.slots = s.slots

/-- R176: the bytes at `[DST .. DST+LEN)` after an ok completion are one function of the keys, the
sector and the source bytes before, in place or not; a partial overlap never completes ok. -/
def Obligations.InPlaceEqualsDisjoint : Prop :=
  ∀ i : Instr, isSectorCommand i →
    (∃ F : KeyPair → BitVec 64 → Bytes → Bytes,
      ∀ (s t : State) (k : KeyPair), s.mem.wf = true → s.slots = some k → exec i s = .next t →
        t.err = false →
        memRead t.mem (s.dstAddr Config.hw) (s.lenVal Config.hw) =
          F k s.sector (memRead s.mem (s.srcAddr Config.hw) (s.lenVal Config.hw))) ∧
    ∀ s t : State, exec i s = .next t → s.dstAddr Config.hw ≠ s.srcAddr Config.hw →
      s.srcAddr Config.hw < s.dstAddr Config.hw + s.dcapVal Config.hw →
      s.dstAddr Config.hw < s.srcAddr Config.hw + s.lenVal Config.hw → t.err = true

/-- R170 at command level, on any hardware with `BC.inverse`: after XTS.ENC from A to B ends ok,
XTS.DEC with the same SECTOR and LEN from B to any C that ends ok leaves at C the bytes A held when
XTS.ENC was issued. The host has set SRC to B, DST to C and DCAP as it likes, and nothing else. -/
def Obligations.CommandRoundTrip : Prop :=
  ∀ (hw : Hw) (s : State) (k : KeyPair) (c n : BitVec 64), hw.Inverse → hw.keyOk k.k1 = true →
    s.mem.wf = true → s.slots = some k → (xtsEncOn hw s).err = false →
    let u : State := { xtsEncOn hw s with src := s.dst, dst := c, dcap := n }
    (xtsDecOn hw u).err = false →
    memRead (xtsDecOn hw u).mem (u.dstAddr hw) (s.lenVal hw) =
      memRead s.mem (s.srcAddr hw) (s.lenVal hw)

/-! ### Errors and STATUS -/

/-- A command ends with the error `e`. -/
def EndsWith (i : Instr) (s : State) (e : CmdError) : Prop :=
  ∃ t, exec i s = .next t ∧ t.err = true ∧ t.errCode = e.code

/-- R193, with R187, R188, R190, R191 and R196: the checks of XTS.ENC and XTS.DEC in order, what
each leaves of memory, and that no register, slot or T changes. -/
def Obligations.SectorErrorsInOrder : Prop :=
  ∀ (i : Instr) (s : State), isSectorCommand i → ¬ (s.keyed = true ∧ SectorReady Config.hw s) →
    ∃ t, exec i s = .next t ∧ SameOperands s t ∧ t.t = s.t ∧ t.slots = s.slots ∧
      if s.keyed = false then EndedWith .illegalState t ∧ SameMemory s t
      else if s.lenVal Config.hw < 16 then
        EndedWith .invalidInputLength t ∧
        SameMemoryOutside (s.dstAddr Config.hw) (s.dstEnd Config.hw) s t
      else if s.dcapVal Config.hw < s.lenVal Config.hw then
        EndedWith .bufferTooSmall t ∧
        SameMemoryOutside (s.dstAddr Config.hw) (s.dstEnd Config.hw) s t
      else EndedWith .illegalRange t ∧ SameMemory s t

/-- R186 under the priority of R193: InvalidKeyLength, code 1, is raised exactly by XTS.NEW in
UNKEYED with key material that is not acceptable, and then nothing but STATUS changes. -/
def Obligations.InvalidKeyLengthExactly : Prop :=
  CmdError.invalidKeyLength.code = 1#4 ∧
  ∀ (i : Instr) (s : State),
    (EndsWith i s .invalidKeyLength ↔
      i = .xtsNew ∧ s.keyed = false ∧
      (s.klen.toNat % 2 ≠ 0 ∨ s.klen.toNat / 2 ∉ Config.hw.keyLens ∨
        Config.hw.keyOk (memRead s.key 0 (s.klen.toNat / 2)) = false ∨
        Config.hw.keyOk (memRead s.key (s.klen.toNat / 2) (s.klen.toNat / 2)) = false)) ∧
    (EndsWith i s .invalidKeyLength → ∃ t, exec i s = .next t ∧ OnlyStatus s t)

/-- R187: InvalidInputLength, code 2, is raised exactly by XTS.ENC and XTS.DEC with a key and
LEN < 16. -/
def Obligations.InvalidInputLengthExactly : Prop :=
  CmdError.invalidInputLength.code = 2#4 ∧
  ∀ (i : Instr) (s : State), EndsWith i s .invalidInputLength ↔
    isSectorCommand i ∧ s.keyed = true ∧ s.lenVal Config.hw < 16

/-- R188: BufferTooSmall is raised exactly by XTS.ENC and XTS.DEC with a key, LEN >= 16 and
DCAP < LEN; its code is 3. -/
def Obligations.BufferTooSmallExactly : Prop :=
  CmdError.bufferTooSmall.code = 3#4 ∧
  ∀ (i : Instr) (s : State), EndsWith i s .bufferTooSmall ↔
    isSectorCommand i ∧ s.keyed = true ∧ 16 ≤ s.lenVal Config.hw ∧
    s.dcapVal Config.hw < s.lenVal Config.hw

/-- R190: IllegalState, code 5, is raised exactly by XTS.ENC, XTS.DEC and TW.INIT with KEYED = 0 and
by XTS.NEW with KEYED = 1, and then nothing but STATUS changes. -/
def Obligations.IllegalStateExactly : Prop :=
  CmdError.illegalState.code = 5#4 ∧
  ∀ (i : Instr) (s : State),
    (EndsWith i s .illegalState ↔
      ((isSectorCommand i ∨ i = .twInit) ∧ s.keyed = false) ∨ (i = .xtsNew ∧ s.keyed = true)) ∧
    (EndsWith i s .illegalState → ∃ t, exec i s = .next t ∧ OnlyStatus s t)

/-- R191, R58, R59: IllegalRange, code 6, is raised exactly by XTS.ENC and XTS.DEC with a key and
sufficient lengths when a buffer wraps or the buffers overlap without being the same, and then
nothing but STATUS changes. -/
def Obligations.IllegalRangeExactly : Prop :=
  CmdError.illegalRange.code = 6#4 ∧
  ∀ (i : Instr) (s : State),
    (EndsWith i s .illegalRange ↔
      isSectorCommand i ∧ s.keyed = true ∧ 16 ≤ s.lenVal Config.hw ∧
      s.lenVal Config.hw ≤ s.dcapVal Config.hw ∧
      (2 ^ Config.hw.aw < s.srcAddr Config.hw + s.lenVal Config.hw ∨
        2 ^ Config.hw.aw < s.dstAddr Config.hw + s.dcapVal Config.hw ∨
        (s.dstAddr Config.hw ≠ s.srcAddr Config.hw ∧
          s.srcAddr Config.hw < s.dstAddr Config.hw + s.dcapVal Config.hw ∧
          s.dstAddr Config.hw < s.srcAddr Config.hw + s.lenVal Config.hw))) ∧
    (EndsWith i s .illegalRange → ∃ t, exec i s = .next t ∧ OnlyStatus s t)

/-- R185, R195, R196: a command that ends with an error has changed no register, no key slot and not
T; memory may differ only inside the declared destination, and only after the two buffer errors. -/
def Obligations.ErrorsChangeNoArchitecturalState : Prop :=
  ∀ (i : Instr) (s t : State), exec i s = .next t → t.err = true →
    SameOperands s t ∧ t.t = s.t ∧ t.slots = s.slots ∧
    SameMemoryOutside (s.dstAddr Config.hw) (s.dstEnd Config.hw) s t ∧
    (t.errCode ≠ CmdError.invalidInputLength.code → t.errCode ≠ CmdError.bufferTooSmall.code →
      SameMemory s t)

/-- R63, R80, R195: every command answers a next state that is IDLE and DONE; none writes KLEN,
SECTOR, SRC, DST, LEN, DCAP or KEY; memory changes only inside the declared destination, and only by
XTS.ENC and XTS.DEC, which keep T and the key slots. -/
def Obligations.CommandFootprint : Prop :=
  ∀ (i : Instr) (s : State), ∃ t, exec i s = .next t ∧ t.phase = .idle ∧ t.done = true ∧
    WorkEmpty t ∧ SameOperands s t ∧
    SameMemoryOutside (s.dstAddr Config.hw) (s.dstEnd Config.hw) s t ∧
    (¬ isSectorCommand i → SameMemory s t) ∧
    (isSectorCommand i → t.t = s.t ∧ t.slots = s.slots)

/-- R36: the fields of the STATUS word. -/
def Obligations.StatusWordFields : Prop :=
  ∀ s : State,
    (s.status.getLsbD 0 = true ↔ s.phase = .busy) ∧ s.status.getLsbD 1 = s.done ∧
    s.status.getLsbD 2 = s.err ∧ (s.status.getLsbD 3 = true ↔ s.slots ≠ none) ∧
    s.status.extractLsb' 4 4 = s.errCode ∧ s.status.extractLsb' 8 24 = 0#24

/-- R192: the STATUS word after a command is DONE + ERR + KEYED + 16 * code, and each code appears
only with the commands and the KEYED value its row gives. -/
def Obligations.StatusWordAfterCommand : Prop :=
  ∀ (i : Instr) (s : State), ∃ t, exec i s = .next t ∧
    t.status.toNat = 2 + (if t.err then 4 else 0) + (if t.keyed then 8 else 0) +
      16 * t.errCode.toNat ∧
    ((t.err = false ∧ t.errCode = 0#4) ∨
     (t.err = true ∧ t.errCode = 1#4 ∧ i = .xtsNew ∧ t.keyed = false) ∨
     (t.err = true ∧ t.errCode = 2#4 ∧ isSectorCommand i ∧ t.keyed = true) ∨
     (t.err = true ∧ t.errCode = 3#4 ∧ isSectorCommand i ∧ t.keyed = true) ∨
     (t.err = true ∧ t.errCode = 5#4 ∧ (isSectorCommand i ∨ i = .twInit) ∧ t.keyed = false) ∨
     (t.err = true ∧ t.errCode = 5#4 ∧ i = .xtsNew ∧ t.keyed = true) ∨
     (t.err = true ∧ t.errCode = 6#4 ∧ isSectorCommand i ∧ t.keyed = true))

/-! ### The host port -/

/-- R77, R50: writing CMD in IDLE captures the low 32 bits, clears DONE, ERR and ERRCODE, sets BUSY
and does nothing else to the core, whatever the word; in BUSY the write has no effect. -/
def Obligations.CmdWriteIssues : Prop :=
  ∀ (s : State) (v : Nat) (rest : List Input), s.inputs = .host (.write 0 v) :: rest →
    (s.phase = .idle →
      ∃ cl, step s = .next
        { s with phase := .busy, cmdReg := BitVec.ofNat 32 v, done := false, err := false,
                 errCode := 0#4, claims := cl, inputs := rest }) ∧
    (s.phase = .busy → step s = .next { s with inputs := rest })

/-- R50, R51, R224: while a command is in flight every host write is dropped without a trace. -/
def Obligations.WritesWhileBusyAreDropped : Prop :=
  ∀ (s : State) (a : HostAction) (rest : List Input), s.phase = .busy →
    s.inputs = .host a :: rest → ((∃ r v, a = .write r v) ∨ ∃ r i b, a = .writeByte r i b) →
    step s = .next { s with inputs := rest }

/-- R50, R52: the step of a host write is `hostWrite`; in IDLE a write to one of KLEN, SECTOR, SRC,
DST, LEN, DCAP reads back as the value with the bits above the register's width dropped, and no other
register, byte or flag changes. -/
def Obligations.RegisterWriteReadsBack : Prop :=
  (∀ (s : State) (r v : Nat) (rest : List Input), s.inputs = .host (.write r v) :: rest →
    step s = .next (hostWrite Config.hw r v { s with inputs := rest })) ∧
  ∀ (s : State) (r v : Nat), s.phase = .idle → 2 ≤ r → r ≤ 7 →
    let t := hostWrite Config.hw r v s
    hostRead Config.hw r t = v % 2 ^ regWidth Config.hw r ∧
    (∀ r', r' ≠ r → hostRead Config.hw r' t = hostRead Config.hw r' s) ∧
    t.t = s.t ∧ t.key = s.key ∧ t.slots = s.slots ∧ t.mem = s.mem ∧ t.phase = s.phase

/-- R51, R53: the step of a host byte write is `hostWriteByte`; in IDLE it sets the one byte it names
in T or KEY, the bytes of T read back so, and an index out of range or another register number
changes nothing. -/
def Obligations.ByteWriteSetsOneByte : Prop :=
  (∀ (s : State) (r i : Nat) (b : Byte) (rest : List Input),
    s.inputs = .host (.writeByte r i b) :: rest →
    step s = .next (hostWriteByte Config.hw r i b { s with inputs := rest })) ∧
  ∀ (s : State) (r i : Nat) (b : Byte), s.phase = .idle → s.key.wf = true →
    let t := hostWriteByte Config.hw r i b s
    (∀ j, j < 16 → blockByte t.t j = if r = 8 ∧ i = j then b else blockByte s.t j) ∧
    (∀ j, j < 16 →
      hostReadByte Config.hw 8 j t = if r = 8 ∧ i = j then b else blockByte s.t j) ∧
    (∀ j, t.key.byteAt j =
      if r = 9 ∧ i = j ∧ i < 2 * kmax Config.hw then b else s.key.byteAt j) ∧
    t = { s with t := t.t, key := t.key }

/-- R52, R53: a port read changes nothing of the core. -/
def Obligations.PortReadsChangeNothing : Prop :=
  ∀ (s : State) (a : HostAction), ((∃ r, a = .read r) ∨ ∃ r i, a = .readByte r i) →
    ∃ t v, hostAct Config.hw a s = .next t ∧
      t = { s with draws := t.draws, claims := t.claims, replies := s.replies ++ [v] }

/-- R24, R36, R50 to R53: a write to STATUS, to a byte-array register by HostWrite, to a scalar
register by HostWriteByte, or to a number of 10 and above is ignored; register numbers of 10 and above
read 0, CMD, T and KEY read 0 by HostRead in IDLE, and a byte read outside T returns 0x00, KEY's bytes
among them, while the bytes of T read as they stand in IDLE. That numbers of 10 and above read 0 in
BUSY too follows the model's reading of `width(r)` (log 8). -/
def Obligations.AbsentRegistersReadZero : Prop :=
  ∀ (s : State) (r i v : Nat) (b : Byte),
    (r = 1 ∨ 8 ≤ r → hostWrite Config.hw r v s = s) ∧
    (r ≠ 8 → r ≠ 9 → hostWriteByte Config.hw r i b s = s) ∧
    (10 ≤ r → hostRead Config.hw r s = 0) ∧
    (s.phase = .idle → r = 0 ∨ 8 ≤ r → hostRead Config.hw r s = 0) ∧
    (s.phase = .idle → i < 16 → hostReadByte Config.hw 8 i s = blockByte s.t i) ∧
    (¬ (r = 8 ∧ i < 16) → hostReadByte Config.hw r i s = 0#8)

/-- R52, R53: what the step of a host read replies. STATUS replies its word in every phase; in IDLE
KLEN, SECTOR, SRC, DST, LEN and DCAP reply their values and every other scalar read replies 0; a byte
of T replies that byte in IDLE, and every other byte read replies 0x00 in every phase; in BUSY a read
of CMD, KLEN, SECTOR, SRC, DST, LEN or DCAP replies some value of the register's width. Nothing else
of the core changes. -/
def Obligations.PortReadsReplyRegisters : Prop :=
  (∀ (s : State) (r : Nat) (rest : List Input), s.inputs = .host (.read r) :: rest →
    ∃ (t : State) (v : Nat), step s = .next t ∧
      t = { s with draws := t.draws, claims := t.claims, inputs := rest,
                   replies := s.replies ++ [.scalar r v] } ∧
      (r = 1 → v = s.status.toNat) ∧
      (s.phase = .idle → r ≠ 1 → v =
        if r = 2 then s.klen.toNat
        else if r = 3 then s.sector.toNat
        else if r = 4 then s.src.toNat % 2 ^ Config.hw.aw
        else if r = 5 then s.dst.toNat % 2 ^ Config.hw.aw
        else if r = 6 then s.len.toNat % 2 ^ Config.hw.aw
        else if r = 7 then s.dcap.toNat % 2 ^ Config.hw.aw
        else 0) ∧
      (s.phase = .busy → r ≤ 7 →
        v < 2 ^ (if r = 3 then 64 else if 4 ≤ r then Config.hw.aw else 32))) ∧
  ∀ (s : State) (r i : Nat) (rest : List Input), s.inputs = .host (.readByte r i) :: rest →
    ∃ (t : State) (b : Byte), step s = .next t ∧
      t = { s with draws := t.draws, inputs := rest, replies := s.replies ++ [.byte r i b] } ∧
      (s.phase = .idle → r = 8 → i < 16 → b = blockByte s.t i) ∧
      (¬ (r = 8 ∧ i < 16) → b = 0x00#8)

/-- R53: nothing the host reads, through the port or from memory, depends on KEY, K1, K2, W, W1, CC,
TAIL or the block holding register, beyond the KEYED bit. -/
def Obligations.SecretsNeverReadThroughPort : Prop :=
  ∀ (s t : State) (a : HostAction) (key : Memory) (slots : Option KeyPair)
    (w w1 cc blk : Option Block) (tail : Option Bytes),
    slots.isSome = s.slots.isSome → hostAct Config.hw a s = .next t →
    ∃ t', hostAct Config.hw a
        { s with key := key, slots := slots, w := w, w1 := w1, cc := cc, blk := blk, tail := tail } =
        .next t' ∧
      t'.replies = t.replies ∧ t'.mem = t.mem

/-- R85: the tuples of the four port operations, kind 0 to 3 with unused positions 0; a tuple stands
for its operation alone, and the host's own memory accesses have none. With the rule's three
examples. -/
def Obligations.PortTupleRoundTrip : Prop :=
  (∀ r v, portTuple (.write r v) = some (0, r, 0, v)) ∧
  (∀ r i b, portTuple (.writeByte r i b) = some (1, r, i, b.toNat)) ∧
  (∀ r, portTuple (.read r) = some (2, r, 0, 0)) ∧
  (∀ r i, portTuple (.readByte r i) = some (3, r, i, 0)) ∧
  (∀ a bytes, portTuple (.mem a bytes) = none) ∧ (∀ a n, portTuple (.dump a n) = none) ∧
  (∀ (a : HostAction) (p : Nat × Nat × Nat × Nat),
    portTuple a = some p ↔ ofPortTuple p = some a) ∧
  ∃ a b c : HostAction,
    expandLine Config.hw (.wr .sector 94) = [.host a] ∧ portTuple a = some (0, 3, 0, 94) ∧
    expandLine Config.hw (.cmd .xtsEnc) = [.host b] ∧ portTuple b = some (0, 0, 0, 0x00000002) ∧
    expandLine Config.hw (.wrb .t 15 [0x80#8]) = [.host c] ∧ portTuple c = some (1, 8, 15, 0x80)

/-! ### Sequencing, runs, reset -/

/-- R220, R78: when a command is in flight and the engine is next, the step answers a next state
that is IDLE and DONE with the working registers empty, whatever the word and the operands. -/
def Obligations.EveryCommandCompletes : Prop :=
  ∀ s : State, s.phase = .busy → s.engineNext = true →
    ∃ t, step s = .next t ∧ t.phase = .idle ∧ t.done = true ∧ t.status.getLsbD 0 = false ∧
      WorkEmpty t

/-- R84, R220: a `wait` on a command in flight ends, and the STATUS it yields has BUSY = 0. That it is
two steps is the model's choice (log 10), and so is that it ends the claims (log 11). -/
def Obligations.WaitYieldsIdleStatus : Prop :=
  ∀ (s : State) (rest : List Input), s.phase = .busy → s.inputs = .wait :: rest →
    ∃ t v, core.run 2 s = .next t ∧ t.phase = .idle ∧ t.inputs = rest ∧ t.claims = [] ∧
      t.replies = s.replies ++ [.scalar 1 v] ∧ v % 2 = 0

/-- R21: PHASE is visible as STATUS.BUSY, goes from IDLE to BUSY only by the host's write of CMD and
from BUSY to IDLE only by the engine's completion, except for reset. -/
def Obligations.PhaseTransitions : Prop :=
  (∀ s : State, s.status.getLsbD 0 = true ↔ s.phase = .busy) ∧
  ∀ s t : State, step s = .next t →
    (s.phase = .idle → t.phase = .busy → ∃ v rest, s.inputs = .host (.write 0 v) :: rest) ∧
    (s.phase = .busy → t.phase = .idle →
      s.engineNext = true ∨ ∃ rest, s.inputs = .reset :: rest)

/-- R198, R220: a step stops only at the host's own access to memory; no command, port operation,
wait or reset stops the machine. -/
def Obligations.OnlyHostMemoryAccessStops : Prop :=
  ∀ s : State, portInputNext s = true → ∃ t, step s = .next t

/-- R222, R223 (with spec/93_implementation_defined.md U5): the model refuses a host store that
meets a claimed source, and a host load or store that meets a claimed destination; a STATUS read in
IDLE ends the claims. Refusing until that read, and not only while BUSY, is log 11. -/
def Obligations.BuffersInFlightAreProtected : Prop :=
  ∀ (s : State) (c : Claim) (a x : Nat) (bytes : Bytes) (n : Nat) (rest : List Input), c ∈ s.claims →
    (s.inputs = .host (.mem a bytes) :: rest → a + bytes.length ≤ 2 ^ Config.hw.aw →
      a ≤ x → x < a + bytes.length →
      (c.src ≤ x → x < c.src + c.len → step s = .refused .sourceInFlight) ∧
      (c.dst ≤ x → x < c.dst + c.dcap →
        step s = .refused .sourceInFlight ∨ step s = .refused .destinationInFlight)) ∧
    (s.inputs = .host (.dump a n) :: rest → a + n ≤ 2 ^ Config.hw.aw → a ≤ x → x < a + n →
      c.dst ≤ x → x < c.dst + c.dcap → step s = .refused .destinationInFlight) ∧
    (s.inputs = .host (.read 1) :: rest → s.phase = .idle →
      ∃ t, step s = .next t ∧ t.claims = [])

/-- R84, R43, R54: the host's own store and load. Inside memory and meeting no claim, `mem` writes its
bytes and no other and `dump` replies the bytes that stand there, and nothing else changes. That an
access past `2^AW` faults is log 12; that accesses to claimed buffers are excepted is log 11. -/
def Obligations.HostStoreAndLoad : Prop :=
  (∀ (s : State) (a : Nat) (bytes : Bytes) (rest : List Input),
    s.inputs = .host (.mem a bytes) :: rest →
    (2 ^ Config.hw.aw < a + bytes.length → step s = .fault .noSuchAddress) ∧
    (a + bytes.length ≤ 2 ^ Config.hw.aw → s.mem.wf = true →
      (∀ c ∈ s.claims, ∀ x, a ≤ x → x < a + bytes.length →
        ¬ (c.src ≤ x ∧ x < c.src + c.len) ∧ ¬ (c.dst ≤ x ∧ x < c.dst + c.dcap)) →
      ∃ t, step s = .next t ∧ t = { s with mem := t.mem, inputs := rest } ∧
        ∀ x, t.mem.byteAt x =
          if h : a ≤ x ∧ x < a + bytes.length then bytes[x - a] else s.mem.byteAt x)) ∧
  ∀ (s : State) (a n : Nat) (rest : List Input), s.inputs = .host (.dump a n) :: rest →
    (2 ^ Config.hw.aw < a + n → step s = .fault .noSuchAddress) ∧
    (a + n ≤ 2 ^ Config.hw.aw →
      (∀ c ∈ s.claims, ∀ x, a ≤ x → x < a + n → ¬ (c.dst ≤ x ∧ x < c.dst + c.dcap)) →
      ∃ bytes : Bytes,
        step s = .next { s with inputs := rest, replies := s.replies ++ [.bytes a bytes] } ∧
        bytes.length = n ∧ ∀ i, (h : i < bytes.length) → bytes[i] = s.mem.byteAt (a + i))

/-- R41: what reset leaves, of the state R41 gives a value. -/
def Obligations.ResetValues : Prop :=
  State.reset.phase = .idle ∧ State.reset.status = 0x00000000#32 ∧ State.reset.keyed = false ∧
  State.reset.k1 = none ∧ State.reset.k2 = none ∧ WorkEmpty State.reset

/-- R215, R216: a reset leads from any state to IDLE, STATUS zero, empty key slots and working
registers; memory is kept, except that the destination of an abandoned XTS.ENC or XTS.DEC may
differ. -/
def Obligations.ResetEventClearsCore : Prop :=
  ∀ (s : State) (rest : List Input), s.inputs = .reset :: rest →
    ∃ t, step s = .next t ∧ t.phase = .idle ∧ t.status = 0#32 ∧ t.slots = none ∧ WorkEmpty t ∧
      t.inputs = rest ∧
      SameMemoryOutside (s.dstAddr Config.hw) (s.dstEnd Config.hw) s t ∧
      (¬ (s.phase = .busy ∧
          (s.cmdReg = commandWord .xtsEnc ∨ s.cmdReg = commandWord .xtsDec)) → SameMemory s t)

/-- The invariant of Safety.lean holds at reset. -/
def Obligations.ResetHasInvariant : Prop := Inv Config.hw State.reset

/-- Every step keeps the invariant of Safety.lean: memory and KEY canonical and inside their spaces,
STATUS one of the legal combinations of R36, filled key slots legal as R33 says, registers within
their widths, working registers empty (R38), buffers in flight claimed (log 11). -/
def Obligations.EveryStepKeepsInvariant : Prop :=
  ∀ s t : State, Inv Config.hw s → step s = .next t → Inv Config.hw t

/-! ### The host script -/

/-- R84, R86, R218: `run MNEMONIC` in IDLE is three steps: the word is issued, the command completes,
and the host has read the STATUS it left. That a `wait` is two steps is log 10; that it ends the
claims is log 11. -/
def Obligations.RunLineReportsStatus : Prop :=
  ∀ (s : State) (i : Instr) (rest : List Input), s.phase = .idle → s.inputs = runCmd i ++ rest →
    ∃ u : State, exec i { issue Config.hw (commandWord i) s with inputs := .wait :: rest } = .next u ∧
      core.run 3 s = .next
        ({ u with inputs := rest, claims := [],
                  replies := s.replies ++ [.scalar 1 u.status.toNat] } : State)

/-- R86, R51, R50: `loadkey` of a sequence that fits KEY stores its bytes from index 0, sets KLEN to
its length and changes nothing else. -/
def Obligations.LoadKeyFillsKey : Prop :=
  ∀ (s : State) (bytes : Bytes) (rest : List Input), s.phase = .idle → s.key.wf = true →
    s.inputs = loadKey bytes ++ rest → bytes.length ≤ keyBytes Config.hw →
    ∃ t : State, core.run (bytes.length + 1) s = .next t ∧
      t = { s with key := t.key, klen := t.klen, inputs := rest } ∧
      t.klen.toNat = bytes.length % 2 ^ 32 ∧
      ∀ j, t.key.byteAt j = if h : j < bytes.length then bytes[j] else s.key.byteAt j
end

