-- ==== Sys2Proof/Laws/Blocks.lean ====
section
/-! SUPPORT. Bytes of blocks, the XEX step and the lengths of the sector function. -/

namespace Sys2Proof.Machine

/-! ### Blocks and their bytes -/

@[simp] theorem blockBytes_length (b : Block) : (blockBytes b).length = 16 := by simp [blockBytes]

@[simp] theorem le64Bytes_length (v : BitVec 64) : (le64Bytes v).length = 8 := by simp [le64Bytes]

@[simp] theorem seedBytes_length (v : BitVec 64) : (seedBytes v).length = 16 := by simp [seedBytes]

theorem leNat_lt : ∀ l : Bytes, leNat l < 256 ^ l.length
  | [] => by simp [leNat]
  | b :: t => by
    have h := leNat_lt t
    have hb := b.isLt
    simp only [leNat, List.length_cons, pow_succ]
    omega

theorem leNat_byte : ∀ (l : Bytes) (i : Nat) (h : i < l.length),
    leNat l / 256 ^ i % 256 = (l[i]).toNat
  | b :: t, 0, _ => by
    have hb := b.isLt
    simp only [leNat, pow_zero, Nat.div_one, List.getElem_cons_zero]
    omega
  | b :: t, i + 1, h => by
    have hb := b.isLt
    have ih := leNat_byte t i (by simpa using h)
    have : (b.toNat + 256 * leNat t) / 256 ^ (i + 1) = leNat t / 256 ^ i := by
      rw [pow_succ', ← Nat.div_div_eq_div_mul]
      congr 1
      omega
    simpa [leNat, this] using ih

/-- Byte `i` of the block of a sequence of at most 16 bytes is its byte `i`. -/
theorem blockByte_blockOfBytes (l : Bytes) (i : Nat) (h : i < l.length) (hl : l.length ≤ 16) :
    blockByte (blockOfBytes l) i = l[i] := by
  apply BitVec.eq_of_toNat_eq
  have hlt : leNat l < 2 ^ 128 := by
    refine lt_of_lt_of_le (leNat_lt l) ?_
    calc 256 ^ l.length ≤ 256 ^ 16 := Nat.pow_le_pow_right (by norm_num) hl
      _ = 2 ^ 128 := by norm_num
  rw [← leNat_byte l i h, blockByte, blockOfBytes, BitVec.extractLsb'_toNat, BitVec.toNat_ofNat,
    Nat.mod_eq_of_lt hlt, Nat.shiftRight_eq_div_pow, pow_mul, show (2 : Nat) ^ 8 = 256 by norm_num]

theorem blockBytes_getElem (b : Block) (i : Nat) (h : i < (blockBytes b).length) :
    (blockBytes b)[i] = blockByte b i := by
  simp [blockBytes]

/-- The bytes of the block of 16 bytes are those bytes. -/
theorem blockBytes_blockOfBytes {l : Bytes} (h : l.length = 16) :
    blockBytes (blockOfBytes l) = l := by
  refine List.ext_getElem (by simp [h]) fun i h₁ h₂ => ?_
  rw [blockBytes_getElem, blockByte_blockOfBytes l i h₂ (by omega)]

/-- Two blocks with the same 16 bytes are equal. -/
theorem block_ext {a b : Block} (h : ∀ i < 16, blockByte a i = blockByte b i) : a = b := by
  apply BitVec.eq_of_getLsbD_eq
  intro k hk
  have h' := congrArg (fun x : Byte => x.getLsbD (k % 8)) (h (k / 8) (by omega))
  simp only [blockByte, BitVec.getLsbD_extractLsb'] at h'
  have h8 : k % 8 < 8 := Nat.mod_lt _ (by norm_num)
  simpa [h8, Nat.div_add_mod k 8] using h'

/-- The block of a block's bytes is the block. -/
@[simp] theorem blockOfBytes_blockBytes (b : Block) : blockOfBytes (blockBytes b) = b := by
  refine block_ext fun i hi => ?_
  rw [blockByte_blockOfBytes _ i (by simpa using hi) (by simp), blockBytes_getElem]

/-- Writing one byte of a block changes that byte alone. -/
theorem blockByte_blockSetByte (t : Block) (i j : Nat) (b : Byte) (hj : j < 16) :
    blockByte (blockSetByte t i b) j = if j = i then b else blockByte t j := by
  rw [blockSetByte, blockByte_blockOfBytes _ j (by simpa using hj) (by simp), List.getElem_set]
  simp only [blockBytes_getElem, eq_comm]

/-- The bytes of the seed block are `LE64(S)` and eight zero bytes. -/
theorem blockBytes_seed (v : BitVec 64) : blockBytes (seed v) = seedBytes v :=
  blockBytes_blockOfBytes (seedBytes_length v)

/-! ### The sector function -/

@[simp] theorem xexBlocks_length (f : Block → Block) :
    ∀ (k : Nat) (w : Block) (src : Bytes), (xexBlocks f k w src).1.length = 16 * k
  | 0, _, _ => rfl
  | k + 1, w, src => by
    simp only [xexBlocks, List.length_append, blockBytes_length,
      xexBlocks_length f k (advance w) (src.drop 16)]
    omega

/-- The working tweak after `k` blocks is `T_k`. -/
theorem xexBlocks_tweak (f : Block → Block) :
    ∀ (k : Nat) (w : Block) (src : Bytes), (xexBlocks f k w src).2 = tweakAt w k
  | 0, _, _ => rfl
  | k + 1, w, src => by
    rw [xexBlocks, xexBlocks_tweak f k (advance w) (src.drop 16)]
    clear src
    induction k with
    | zero => rfl
    | succ k ih => simpa [tweakAt] using congrArg advance ih

theorem stealEnc_length (f : Block → Block) (w last : Block) {tail : Bytes} (h : tail.length ≤ 16) :
    (stealEnc f w last tail).length = 16 + tail.length := by
  simp [stealEnc, h]

theorem stealDec_length (f : Block → Block) (w last : Block) {tail : Bytes} (h : tail.length ≤ 16) :
    (stealDec f w last tail).length = 16 + tail.length := by
  simp [stealDec, h]

/-- The sector function keeps the length when its stealing path writes `16 + rem` bytes. -/
theorem xtsSector_length (f : Block → Block) {steal : Block → Block → Bytes → Bytes}
    (hs : ∀ w last tail, tail.length ≤ 16 → (steal w last tail).length = 16 + tail.length)
    (t0 : Block) {src : Bytes} (h : 16 ≤ src.length) :
    (xtsSector f steal t0 src).length = src.length := by
  have hd := Nat.div_add_mod src.length 16
  have hm := Nat.mod_lt src.length (show 0 < 16 by norm_num)
  simp only [xtsSector, regularCount, remainder, blockCount]
  by_cases h0 : src.length % 16 = 0
  · simp only [h0, if_true, xexBlocks_length]
    omega
  · simp only [h0, if_false, List.length_append, xexBlocks_length]
    rw [hs _ _ _ (by simp; omega), List.length_drop]
    omega

end Sys2Proof.Machine
end

