-- ==== Sys2Proof/Laws/Config.lean ====
section
/-! SUPPORT. The hardware the machine runs on obeys R8 and R10, whatever its open parameters are. -/

namespace Sys2Proof

/-- The parameters of the machine are lawful. -/
theorem Config.hw_lawful : Config.hw.Lawful where
  aw_ge := Nat.le_add_right _ _
  aw_le := by
    have := Config.awAbove16.isLt
    simp only [Config.hw, Config.aw]
    omega
  keyLens_ne := by simp [Config.hw, Config.keyLens]
  keyLens_pos := by
    intro n hn
    simp only [Config.hw, Config.keyLens, List.mem_cons, List.mem_map] at hn
    rcases hn with h | ⟨m, _, h⟩ <;> omega
  keyOk_len := by
    intro k hk
    simp only [Config.hw, Config.keyOk, Bool.and_eq_true, List.contains_iff_mem] at hk
    exact hk.1

end Sys2Proof
end

