-- ==== Sys2Proof/Laws/Memory.lean ====
section
/-! SUPPORT. Memory: every operation keeps the canonical form, a read after a write gives what was
written, a write leaves every other address alone, and equal contents are equal lists. -/

namespace Sys2Proof.Machine

/-! ### Reading what `cons` and `put` build -/

theorem wfFrom_mono {lo lo' : Nat} (h : lo' ≤ lo) :
    ∀ {m : Memory}, Memory.wfFrom lo m = true → Memory.wfFrom lo' m = true
  | [], _ => rfl
  | (k, v) :: t, hm => by
    simp only [Memory.wfFrom, Bool.and_eq_true, decide_eq_true_eq] at hm ⊢
    exact ⟨⟨h.trans hm.1.1, hm.1.2⟩, hm.2⟩

/-- Below its first address a well-formed list reads as unlisted. -/
theorem byteAt_of_lt {a : Nat} :
    ∀ {lo : Nat} {m : Memory}, Memory.wfFrom lo m = true → a < lo → m.byteAt a = Memory.unlisted
  | _, [], _, _ => rfl
  | lo, (k, v) :: t, hm, h => by
    simp only [Memory.wfFrom, Bool.and_eq_true, decide_eq_true_eq] at hm
    have hne : a ≠ k := by omega
    simp only [Memory.byteAt, hne, if_false]
    exact byteAt_of_lt hm.2 (by omega)

theorem byteAt_cons (a x : Nat) (b : Byte) (t : Memory) (ht : Memory.wfFrom (a + 1) t = true) :
    (Memory.cons a b t).byteAt x = if x = a then b else t.byteAt x := by
  unfold Memory.cons
  split
  · rename_i hb
    split
    · subst_vars; exact byteAt_of_lt ht (Nat.lt_succ_self _)
    · rfl
  · rfl

theorem wfFrom_cons {lo a : Nat} {b : Byte} {t : Memory} (h : lo ≤ a)
    (ht : Memory.wfFrom (a + 1) t = true) : Memory.wfFrom lo (Memory.cons a b t) = true := by
  unfold Memory.cons
  split
  · exact wfFrom_mono (by omega) ht
  · rename_i hb
    simp [Memory.wfFrom, h, hb, ht]

theorem wfFrom_put {a : Nat} {b : Byte} :
    ∀ {lo : Nat} {m : Memory}, lo ≤ a → Memory.wfFrom lo m = true →
      Memory.wfFrom lo (m.put a b) = true
  | lo, [], h, _ => wfFrom_cons h rfl
  | lo, (k, v) :: t, h, hm => by
    have hm' := hm
    simp only [Memory.wfFrom, Bool.and_eq_true, decide_eq_true_eq] at hm
    simp only [Memory.put]
    split
    · rename_i hlt
      refine wfFrom_cons h ?_
      simp only [Memory.wfFrom, Bool.and_eq_true, decide_eq_true_eq]
      exact ⟨⟨hlt, hm.1.2⟩, hm.2⟩
    · split
      · rename_i hak
        exact wfFrom_cons h (hak ▸ hm.2)
      · simp only [Memory.wfFrom, Bool.and_eq_true, decide_eq_true_eq]
        exact ⟨hm.1, wfFrom_put (by omega) hm.2⟩

theorem byteAt_put_from {a x : Nat} {b : Byte} :
    ∀ {lo : Nat} {m : Memory}, Memory.wfFrom lo m = true →
      (m.put a b).byteAt x = if x = a then b else m.byteAt x
  | lo, [], _ => byteAt_cons a x b [] rfl
  | lo, (k, v) :: t, hm => by
    simp only [Memory.wfFrom, Bool.and_eq_true, decide_eq_true_eq] at hm
    simp only [Memory.put]
    split
    · rename_i hlt
      refine byteAt_cons a x b _ ?_
      simp only [Memory.wfFrom, Bool.and_eq_true, decide_eq_true_eq]
      exact ⟨⟨hlt, hm.1.2⟩, hm.2⟩
    · split
      · rename_i hak
        rw [byteAt_cons a x b t (hak ▸ hm.2)]
        by_cases hx : x = a
        · simp [hx]
        · have : x ≠ k := hak ▸ hx
          simp [hx, Memory.byteAt, this]
      · rename_i hne
        have ih := byteAt_put_from (a := a) (x := x) (b := b) hm.2
        simp only [Memory.byteAt]
        by_cases hx : x = k
        · have : x ≠ a := fun h => hne (h ▸ hx)
          simp [hx]
          intro h; exact absurd h.symm hne
        · simp [hx, ih]

/-- The canonical form is kept by `put`. -/
theorem wf_put {m : Memory} (a : Nat) (b : Byte) (h : m.wf = true) : (m.put a b).wf = true :=
  wfFrom_put (Nat.zero_le _) h

/-- What one address reads after `put`. -/
theorem byteAt_put {m : Memory} (a x : Nat) (b : Byte) (h : m.wf = true) :
    (m.put a b).byteAt x = if x = a then b else m.byteAt x :=
  byteAt_put_from h

/-- `put` leaves every other address alone, whatever the list. -/
theorem byteAt_put_other {a x : Nat} {b : Byte} (hx : x ≠ a) :
    ∀ m : Memory, (m.put a b).byteAt x = m.byteAt x
  | [] => by simp only [Memory.put, Memory.cons]; split <;> simp [Memory.byteAt, hx]
  | (k, v) :: t => by
    simp only [Memory.put, Memory.cons]
    split
    · split <;> simp [Memory.byteAt, hx]
    · split
      · rename_i hak
        have : x ≠ k := hak ▸ hx
        split <;> simp [Memory.byteAt, hx, this]
      · simp [Memory.byteAt, byteAt_put_other hx t]

/-! ### Byte sequences -/

@[simp] theorem memRead_length (m : Memory) (a n : Nat) : (memRead m a n).length = n := by
  simp [memRead]

@[simp] theorem freeBytes_length (hw : Hw) (d n : Nat) : (freeBytes hw d n).length = n := by
  simp [freeBytes]

theorem memRead_getElem (m : Memory) (a n i : Nat) (h : i < (memRead m a n).length) :
    (memRead m a n)[i] = m.byteAt (a + i) := by
  simp [memRead]

/-- The canonical form is kept by `MemWrite`. -/
theorem wf_memWrite : ∀ {m : Memory} (a : Nat) (v : Bytes), m.wf = true → (memWrite m a v).wf = true
  | _, _, [], h => h
  | _, a, b :: t, h => wf_memWrite (a + 1) t (wf_put a b h)

/-- `MemWrite` leaves every address outside its range alone, whatever the list. -/
theorem byteAt_memWrite_other :
    ∀ (m : Memory) (a : Nat) (v : Bytes) (x : Nat), x < a ∨ a + v.length ≤ x →
      (memWrite m a v).byteAt x = m.byteAt x
  | _, _, [], _, _ => rfl
  | m, a, b :: t, x, h => by
    simp only [List.length_cons] at h
    rw [memWrite, byteAt_memWrite_other (m.put a b) (a + 1) t x (by omega),
      byteAt_put_other (by omega)]

/-- Inside its range `MemWrite` puts `v[i]` at `a + i`. -/
theorem byteAt_memWrite :
    ∀ {m : Memory} (a : Nat) (v : Bytes) (i : Nat) (h : i < v.length), m.wf = true →
      (memWrite m a v).byteAt (a + i) = v[i]
  | m, a, b :: t, 0, _, hm => by
    rw [memWrite, byteAt_memWrite_other _ _ _ _ (by omega), byteAt_put _ _ _ hm]
    simp
  | m, a, b :: t, i + 1, h, hm => by
    have := byteAt_memWrite (m := m.put a b) (a + 1) t i (by simpa using h) (wf_put a b hm)
    simpa [memWrite, Nat.add_assoc, Nat.add_comm 1 i] using this

/-- Reading back what was written. -/
theorem memRead_memWrite {m : Memory} (a : Nat) (v : Bytes) (hm : m.wf = true) :
    memRead (memWrite m a v) a v.length = v := by
  refine List.ext_getElem (by simp) fun i h₁ h₂ => ?_
  rw [memRead_getElem, byteAt_memWrite a v i h₂ hm]

/-- A read depends only on the bytes it covers. -/
theorem memRead_congr {m m' : Memory} {a n : Nat}
    (h : ∀ x, a ≤ x → x < a + n → m.byteAt x = m'.byteAt x) : memRead m a n = memRead m' a n := by
  refine List.ext_getElem (by simp) fun i h₁ h₂ => ?_
  rw [memRead_getElem, memRead_getElem]
  rw [memRead_length] at h₁
  exact h _ (by omega) (by omega)

/-- A read outside a written range sees the old bytes. -/
theorem memRead_memWrite_other (m : Memory) {a n b : Nat} (v : Bytes)
    (h : a + n ≤ b ∨ b + v.length ≤ a) : memRead (memWrite m b v) a n = memRead m a n :=
  memRead_congr fun x _ _ => byteAt_memWrite_other m b v x (by omega)

/-! ### Where entries lie -/

theorem mem_put {m : Memory} {a : Nat} {b : Byte} {c : Host.Cell} (h : c ∈ m.put a b) :
    c.1 = a ∨ c ∈ m := by
  induction m with
  | nil =>
    simp only [Memory.put, Memory.cons] at h
    split at h <;> simp_all
  | cons hd t ih =>
    obtain ⟨k, v⟩ := hd
    simp only [Memory.put, Memory.cons] at h
    split at h
    · split at h <;> simp_all
      rcases h with h | h <;> simp_all
    · split at h
      · split at h <;> simp_all
        rcases h with h | h <;> simp_all
      · rcases List.mem_cons.mp h with h | h
        · simp [h]
        · rcases ih h with h | h <;> simp [h]

/-- Entries stay below a bound when all that is written does. -/
theorem memWrite_below {bound : Nat} :
    ∀ {m : Memory} (a : Nat) (v : Bytes), (∀ c ∈ m, c.1 < bound) → a + v.length ≤ bound →
      ∀ c ∈ memWrite m a v, c.1 < bound
  | _, _, [], h, _ => h
  | m, a, b :: t, h, hb => by
    simp only [List.length_cons] at hb
    refine memWrite_below (a + 1) t (fun c hc => ?_) (by omega)
    rcases mem_put hc with h' | h'
    · omega
    · exact h c h'

/-! ### Equal contents are equal lists -/

theorem eq_of_byteAt_eq_from {m m' : Memory} :
    ∀ {lo : Nat}, Memory.wfFrom lo m = true → Memory.wfFrom lo m' = true →
      (∀ x, m.byteAt x = m'.byteAt x) → m = m' := by
  induction m generalizing m' with
  | nil =>
    intro lo _ h' hx
    cases m' with
    | nil => rfl
    | cons hd t =>
      obtain ⟨k, v⟩ := hd
      have := hx k
      simp_all [Memory.wfFrom, Memory.byteAt]
  | cons hd t ih =>
    obtain ⟨k, v⟩ := hd
    intro lo h h' hx
    cases m' with
    | nil =>
      have := hx k
      simp_all [Memory.wfFrom, Memory.byteAt]
    | cons hd' t' =>
      obtain ⟨k', v'⟩ := hd'
      simp only [Memory.wfFrom, Bool.and_eq_true, decide_eq_true_eq, bne_iff_ne] at h h'
      have hk : k = k' := by
        rcases Nat.lt_trichotomy k k' with hlt | heq | hlt
        · have h1 := hx k
          simp only [Memory.byteAt, if_true, if_neg (Nat.ne_of_lt hlt)] at h1
          rw [byteAt_of_lt h'.2 (by omega)] at h1
          exact absurd h1 h.1.2
        · exact heq
        · have h1 := hx k'
          simp only [Memory.byteAt, if_true, if_neg (Nat.ne_of_lt hlt)] at h1
          rw [byteAt_of_lt h.2 (by omega)] at h1
          exact absurd h1.symm h'.1.2
      subst hk
      have hv : v = v' := by simpa [Memory.byteAt] using hx k
      subst hv
      refine congrArg _ (ih h.2 h'.2 fun x => ?_)
      by_cases hxk : x = k
      · subst hxk
        rw [byteAt_of_lt h.2 (by omega), byteAt_of_lt h'.2 (by omega)]
      · simpa [Memory.byteAt, hxk] using hx x

/-- Memories in canonical form that read the same everywhere are the same list. -/
theorem eq_of_byteAt_eq {m m' : Memory} (h : m.wf = true) (h' : m'.wf = true)
    (hx : ∀ x, m.byteAt x = m'.byteAt x) : m = m' :=
  eq_of_byteAt_eq_from h h' hx

end Sys2Proof.Machine
end

