-- ==== Sys2Proof/Laws/State.lean ====
section
/-! SUPPORT. One lemma per field per named update of the state, each true by unfolding, so that no
later proof unfolds a record update. -/

namespace Sys2Proof.Machine

variable (s : State)


/-! ### State.setT -/

@[simp] theorem setT_phase (b : Block) : (s.setT b).phase = s.phase := rfl
@[simp] theorem setT_cmdReg (b : Block) : (s.setT b).cmdReg = s.cmdReg := rfl
@[simp] theorem setT_done (b : Block) : (s.setT b).done = s.done := rfl
@[simp] theorem setT_err (b : Block) : (s.setT b).err = s.err := rfl
@[simp] theorem setT_errCode (b : Block) : (s.setT b).errCode = s.errCode := rfl
@[simp] theorem setT_klen (b : Block) : (s.setT b).klen = s.klen := rfl
@[simp] theorem setT_sector (b : Block) : (s.setT b).sector = s.sector := rfl
@[simp] theorem setT_src (b : Block) : (s.setT b).src = s.src := rfl
@[simp] theorem setT_dst (b : Block) : (s.setT b).dst = s.dst := rfl
@[simp] theorem setT_len (b : Block) : (s.setT b).len = s.len := rfl
@[simp] theorem setT_dcap (b : Block) : (s.setT b).dcap = s.dcap := rfl
@[simp] theorem setT_t (b : Block) : (s.setT b).t = b := rfl
@[simp] theorem setT_key (b : Block) : (s.setT b).key = s.key := rfl
@[simp] theorem setT_slots (b : Block) : (s.setT b).slots = s.slots := rfl
@[simp] theorem setT_w (b : Block) : (s.setT b).w = s.w := rfl
@[simp] theorem setT_w1 (b : Block) : (s.setT b).w1 = s.w1 := rfl
@[simp] theorem setT_cc (b : Block) : (s.setT b).cc = s.cc := rfl
@[simp] theorem setT_tail (b : Block) : (s.setT b).tail = s.tail := rfl
@[simp] theorem setT_blk (b : Block) : (s.setT b).blk = s.blk := rfl
@[simp] theorem setT_mem (b : Block) : (s.setT b).mem = s.mem := rfl
@[simp] theorem setT_draws (b : Block) : (s.setT b).draws = s.draws := rfl
@[simp] theorem setT_claims (b : Block) : (s.setT b).claims = s.claims := rfl
@[simp] theorem setT_inputs (b : Block) : (s.setT b).inputs = s.inputs := rfl
@[simp] theorem setT_replies (b : Block) : (s.setT b).replies = s.replies := rfl

/-! ### State.setSlots -/

@[simp] theorem setSlots_phase (k : Option KeyPair) : (s.setSlots k).phase = s.phase := rfl
@[simp] theorem setSlots_cmdReg (k : Option KeyPair) : (s.setSlots k).cmdReg = s.cmdReg := rfl
@[simp] theorem setSlots_done (k : Option KeyPair) : (s.setSlots k).done = s.done := rfl
@[simp] theorem setSlots_err (k : Option KeyPair) : (s.setSlots k).err = s.err := rfl
@[simp] theorem setSlots_errCode (k : Option KeyPair) : (s.setSlots k).errCode = s.errCode := rfl
@[simp] theorem setSlots_klen (k : Option KeyPair) : (s.setSlots k).klen = s.klen := rfl
@[simp] theorem setSlots_sector (k : Option KeyPair) : (s.setSlots k).sector = s.sector := rfl
@[simp] theorem setSlots_src (k : Option KeyPair) : (s.setSlots k).src = s.src := rfl
@[simp] theorem setSlots_dst (k : Option KeyPair) : (s.setSlots k).dst = s.dst := rfl
@[simp] theorem setSlots_len (k : Option KeyPair) : (s.setSlots k).len = s.len := rfl
@[simp] theorem setSlots_dcap (k : Option KeyPair) : (s.setSlots k).dcap = s.dcap := rfl
@[simp] theorem setSlots_t (k : Option KeyPair) : (s.setSlots k).t = s.t := rfl
@[simp] theorem setSlots_key (k : Option KeyPair) : (s.setSlots k).key = s.key := rfl
@[simp] theorem setSlots_slots (k : Option KeyPair) : (s.setSlots k).slots = k := rfl
@[simp] theorem setSlots_w (k : Option KeyPair) : (s.setSlots k).w = s.w := rfl
@[simp] theorem setSlots_w1 (k : Option KeyPair) : (s.setSlots k).w1 = s.w1 := rfl
@[simp] theorem setSlots_cc (k : Option KeyPair) : (s.setSlots k).cc = s.cc := rfl
@[simp] theorem setSlots_tail (k : Option KeyPair) : (s.setSlots k).tail = s.tail := rfl
@[simp] theorem setSlots_blk (k : Option KeyPair) : (s.setSlots k).blk = s.blk := rfl
@[simp] theorem setSlots_mem (k : Option KeyPair) : (s.setSlots k).mem = s.mem := rfl
@[simp] theorem setSlots_draws (k : Option KeyPair) : (s.setSlots k).draws = s.draws := rfl
@[simp] theorem setSlots_claims (k : Option KeyPair) : (s.setSlots k).claims = s.claims := rfl
@[simp] theorem setSlots_inputs (k : Option KeyPair) : (s.setSlots k).inputs = s.inputs := rfl
@[simp] theorem setSlots_replies (k : Option KeyPair) : (s.setSlots k).replies = s.replies := rfl

/-! ### State.setMem -/

@[simp] theorem setMem_phase (m : Memory) : (s.setMem m).phase = s.phase := rfl
@[simp] theorem setMem_cmdReg (m : Memory) : (s.setMem m).cmdReg = s.cmdReg := rfl
@[simp] theorem setMem_done (m : Memory) : (s.setMem m).done = s.done := rfl
@[simp] theorem setMem_err (m : Memory) : (s.setMem m).err = s.err := rfl
@[simp] theorem setMem_errCode (m : Memory) : (s.setMem m).errCode = s.errCode := rfl
@[simp] theorem setMem_klen (m : Memory) : (s.setMem m).klen = s.klen := rfl
@[simp] theorem setMem_sector (m : Memory) : (s.setMem m).sector = s.sector := rfl
@[simp] theorem setMem_src (m : Memory) : (s.setMem m).src = s.src := rfl
@[simp] theorem setMem_dst (m : Memory) : (s.setMem m).dst = s.dst := rfl
@[simp] theorem setMem_len (m : Memory) : (s.setMem m).len = s.len := rfl
@[simp] theorem setMem_dcap (m : Memory) : (s.setMem m).dcap = s.dcap := rfl
@[simp] theorem setMem_t (m : Memory) : (s.setMem m).t = s.t := rfl
@[simp] theorem setMem_key (m : Memory) : (s.setMem m).key = s.key := rfl
@[simp] theorem setMem_slots (m : Memory) : (s.setMem m).slots = s.slots := rfl
@[simp] theorem setMem_w (m : Memory) : (s.setMem m).w = s.w := rfl
@[simp] theorem setMem_w1 (m : Memory) : (s.setMem m).w1 = s.w1 := rfl
@[simp] theorem setMem_cc (m : Memory) : (s.setMem m).cc = s.cc := rfl
@[simp] theorem setMem_tail (m : Memory) : (s.setMem m).tail = s.tail := rfl
@[simp] theorem setMem_blk (m : Memory) : (s.setMem m).blk = s.blk := rfl
@[simp] theorem setMem_mem (m : Memory) : (s.setMem m).mem = m := rfl
@[simp] theorem setMem_draws (m : Memory) : (s.setMem m).draws = s.draws := rfl
@[simp] theorem setMem_claims (m : Memory) : (s.setMem m).claims = s.claims := rfl
@[simp] theorem setMem_inputs (m : Memory) : (s.setMem m).inputs = s.inputs := rfl
@[simp] theorem setMem_replies (m : Memory) : (s.setMem m).replies = s.replies := rfl

/-! ### State.drawn -/

@[simp] theorem drawn_phase : (s.drawn).phase = s.phase := rfl
@[simp] theorem drawn_cmdReg : (s.drawn).cmdReg = s.cmdReg := rfl
@[simp] theorem drawn_done : (s.drawn).done = s.done := rfl
@[simp] theorem drawn_err : (s.drawn).err = s.err := rfl
@[simp] theorem drawn_errCode : (s.drawn).errCode = s.errCode := rfl
@[simp] theorem drawn_klen : (s.drawn).klen = s.klen := rfl
@[simp] theorem drawn_sector : (s.drawn).sector = s.sector := rfl
@[simp] theorem drawn_src : (s.drawn).src = s.src := rfl
@[simp] theorem drawn_dst : (s.drawn).dst = s.dst := rfl
@[simp] theorem drawn_len : (s.drawn).len = s.len := rfl
@[simp] theorem drawn_dcap : (s.drawn).dcap = s.dcap := rfl
@[simp] theorem drawn_t : (s.drawn).t = s.t := rfl
@[simp] theorem drawn_key : (s.drawn).key = s.key := rfl
@[simp] theorem drawn_slots : (s.drawn).slots = s.slots := rfl
@[simp] theorem drawn_w : (s.drawn).w = s.w := rfl
@[simp] theorem drawn_w1 : (s.drawn).w1 = s.w1 := rfl
@[simp] theorem drawn_cc : (s.drawn).cc = s.cc := rfl
@[simp] theorem drawn_tail : (s.drawn).tail = s.tail := rfl
@[simp] theorem drawn_blk : (s.drawn).blk = s.blk := rfl
@[simp] theorem drawn_mem : (s.drawn).mem = s.mem := rfl
@[simp] theorem drawn_draws : (s.drawn).draws = s.draws + 1 := rfl
@[simp] theorem drawn_claims : (s.drawn).claims = s.claims := rfl
@[simp] theorem drawn_inputs : (s.drawn).inputs = s.inputs := rfl
@[simp] theorem drawn_replies : (s.drawn).replies = s.replies := rfl

/-! ### State.popInput -/

@[simp] theorem popInput_phase : (s.popInput).phase = s.phase := rfl
@[simp] theorem popInput_cmdReg : (s.popInput).cmdReg = s.cmdReg := rfl
@[simp] theorem popInput_done : (s.popInput).done = s.done := rfl
@[simp] theorem popInput_err : (s.popInput).err = s.err := rfl
@[simp] theorem popInput_errCode : (s.popInput).errCode = s.errCode := rfl
@[simp] theorem popInput_klen : (s.popInput).klen = s.klen := rfl
@[simp] theorem popInput_sector : (s.popInput).sector = s.sector := rfl
@[simp] theorem popInput_src : (s.popInput).src = s.src := rfl
@[simp] theorem popInput_dst : (s.popInput).dst = s.dst := rfl
@[simp] theorem popInput_len : (s.popInput).len = s.len := rfl
@[simp] theorem popInput_dcap : (s.popInput).dcap = s.dcap := rfl
@[simp] theorem popInput_t : (s.popInput).t = s.t := rfl
@[simp] theorem popInput_key : (s.popInput).key = s.key := rfl
@[simp] theorem popInput_slots : (s.popInput).slots = s.slots := rfl
@[simp] theorem popInput_w : (s.popInput).w = s.w := rfl
@[simp] theorem popInput_w1 : (s.popInput).w1 = s.w1 := rfl
@[simp] theorem popInput_cc : (s.popInput).cc = s.cc := rfl
@[simp] theorem popInput_tail : (s.popInput).tail = s.tail := rfl
@[simp] theorem popInput_blk : (s.popInput).blk = s.blk := rfl
@[simp] theorem popInput_mem : (s.popInput).mem = s.mem := rfl
@[simp] theorem popInput_draws : (s.popInput).draws = s.draws := rfl
@[simp] theorem popInput_claims : (s.popInput).claims = s.claims := rfl
@[simp] theorem popInput_inputs : (s.popInput).inputs = s.inputs.tail := rfl
@[simp] theorem popInput_replies : (s.popInput).replies = s.replies := rfl

/-! ### clearFlags -/

@[simp] theorem clearFlags_phase : (clearFlags s).phase = s.phase := rfl
@[simp] theorem clearFlags_cmdReg : (clearFlags s).cmdReg = s.cmdReg := rfl
@[simp] theorem clearFlags_done : (clearFlags s).done = false := rfl
@[simp] theorem clearFlags_err : (clearFlags s).err = false := rfl
@[simp] theorem clearFlags_errCode : (clearFlags s).errCode = 0#4 := rfl
@[simp] theorem clearFlags_klen : (clearFlags s).klen = s.klen := rfl
@[simp] theorem clearFlags_sector : (clearFlags s).sector = s.sector := rfl
@[simp] theorem clearFlags_src : (clearFlags s).src = s.src := rfl
@[simp] theorem clearFlags_dst : (clearFlags s).dst = s.dst := rfl
@[simp] theorem clearFlags_len : (clearFlags s).len = s.len := rfl
@[simp] theorem clearFlags_dcap : (clearFlags s).dcap = s.dcap := rfl
@[simp] theorem clearFlags_t : (clearFlags s).t = s.t := rfl
@[simp] theorem clearFlags_key : (clearFlags s).key = s.key := rfl
@[simp] theorem clearFlags_slots : (clearFlags s).slots = s.slots := rfl
@[simp] theorem clearFlags_w : (clearFlags s).w = s.w := rfl
@[simp] theorem clearFlags_w1 : (clearFlags s).w1 = s.w1 := rfl
@[simp] theorem clearFlags_cc : (clearFlags s).cc = s.cc := rfl
@[simp] theorem clearFlags_tail : (clearFlags s).tail = s.tail := rfl
@[simp] theorem clearFlags_blk : (clearFlags s).blk = s.blk := rfl
@[simp] theorem clearFlags_mem : (clearFlags s).mem = s.mem := rfl
@[simp] theorem clearFlags_draws : (clearFlags s).draws = s.draws := rfl
@[simp] theorem clearFlags_claims : (clearFlags s).claims = s.claims := rfl
@[simp] theorem clearFlags_inputs : (clearFlags s).inputs = s.inputs := rfl
@[simp] theorem clearFlags_replies : (clearFlags s).replies = s.replies := rfl

/-! ### writeFlags -/

@[simp] theorem writeFlags_phase (e : Option CmdError) : (writeFlags e s).phase = s.phase := rfl
@[simp] theorem writeFlags_cmdReg (e : Option CmdError) : (writeFlags e s).cmdReg = s.cmdReg := rfl
@[simp] theorem writeFlags_done (e : Option CmdError) : (writeFlags e s).done = true := rfl
@[simp] theorem writeFlags_err (e : Option CmdError) : (writeFlags e s).err = e.isSome := rfl
@[simp] theorem writeFlags_errCode (e : Option CmdError) : (writeFlags e s).errCode = (e.map CmdError.code).getD 0#4 := rfl
@[simp] theorem writeFlags_klen (e : Option CmdError) : (writeFlags e s).klen = s.klen := rfl
@[simp] theorem writeFlags_sector (e : Option CmdError) : (writeFlags e s).sector = s.sector := rfl
@[simp] theorem writeFlags_src (e : Option CmdError) : (writeFlags e s).src = s.src := rfl
@[simp] theorem writeFlags_dst (e : Option CmdError) : (writeFlags e s).dst = s.dst := rfl
@[simp] theorem writeFlags_len (e : Option CmdError) : (writeFlags e s).len = s.len := rfl
@[simp] theorem writeFlags_dcap (e : Option CmdError) : (writeFlags e s).dcap = s.dcap := rfl
@[simp] theorem writeFlags_t (e : Option CmdError) : (writeFlags e s).t = s.t := rfl
@[simp] theorem writeFlags_key (e : Option CmdError) : (writeFlags e s).key = s.key := rfl
@[simp] theorem writeFlags_slots (e : Option CmdError) : (writeFlags e s).slots = s.slots := rfl
@[simp] theorem writeFlags_w (e : Option CmdError) : (writeFlags e s).w = s.w := rfl
@[simp] theorem writeFlags_w1 (e : Option CmdError) : (writeFlags e s).w1 = s.w1 := rfl
@[simp] theorem writeFlags_cc (e : Option CmdError) : (writeFlags e s).cc = s.cc := rfl
@[simp] theorem writeFlags_tail (e : Option CmdError) : (writeFlags e s).tail = s.tail := rfl
@[simp] theorem writeFlags_blk (e : Option CmdError) : (writeFlags e s).blk = s.blk := rfl
@[simp] theorem writeFlags_mem (e : Option CmdError) : (writeFlags e s).mem = s.mem := rfl
@[simp] theorem writeFlags_draws (e : Option CmdError) : (writeFlags e s).draws = s.draws := rfl
@[simp] theorem writeFlags_claims (e : Option CmdError) : (writeFlags e s).claims = s.claims := rfl
@[simp] theorem writeFlags_inputs (e : Option CmdError) : (writeFlags e s).inputs = s.inputs := rfl
@[simp] theorem writeFlags_replies (e : Option CmdError) : (writeFlags e s).replies = s.replies := rfl

/-! ### emptyWork -/

@[simp] theorem emptyWork_phase : (emptyWork s).phase = s.phase := rfl
@[simp] theorem emptyWork_cmdReg : (emptyWork s).cmdReg = s.cmdReg := rfl
@[simp] theorem emptyWork_done : (emptyWork s).done = s.done := rfl
@[simp] theorem emptyWork_err : (emptyWork s).err = s.err := rfl
@[simp] theorem emptyWork_errCode : (emptyWork s).errCode = s.errCode := rfl
@[simp] theorem emptyWork_klen : (emptyWork s).klen = s.klen := rfl
@[simp] theorem emptyWork_sector : (emptyWork s).sector = s.sector := rfl
@[simp] theorem emptyWork_src : (emptyWork s).src = s.src := rfl
@[simp] theorem emptyWork_dst : (emptyWork s).dst = s.dst := rfl
@[simp] theorem emptyWork_len : (emptyWork s).len = s.len := rfl
@[simp] theorem emptyWork_dcap : (emptyWork s).dcap = s.dcap := rfl
@[simp] theorem emptyWork_t : (emptyWork s).t = s.t := rfl
@[simp] theorem emptyWork_key : (emptyWork s).key = s.key := rfl
@[simp] theorem emptyWork_slots : (emptyWork s).slots = s.slots := rfl
@[simp] theorem emptyWork_w : (emptyWork s).w = none := rfl
@[simp] theorem emptyWork_w1 : (emptyWork s).w1 = none := rfl
@[simp] theorem emptyWork_cc : (emptyWork s).cc = none := rfl
@[simp] theorem emptyWork_tail : (emptyWork s).tail = none := rfl
@[simp] theorem emptyWork_blk : (emptyWork s).blk = none := rfl
@[simp] theorem emptyWork_mem : (emptyWork s).mem = s.mem := rfl
@[simp] theorem emptyWork_draws : (emptyWork s).draws = s.draws := rfl
@[simp] theorem emptyWork_claims : (emptyWork s).claims = s.claims := rfl
@[simp] theorem emptyWork_inputs : (emptyWork s).inputs = s.inputs := rfl
@[simp] theorem emptyWork_replies : (emptyWork s).replies = s.replies := rfl

/-! ### toIdle -/

@[simp] theorem toIdle_phase : (toIdle s).phase = .idle := rfl
@[simp] theorem toIdle_cmdReg : (toIdle s).cmdReg = s.cmdReg := rfl
@[simp] theorem toIdle_done : (toIdle s).done = s.done := rfl
@[simp] theorem toIdle_err : (toIdle s).err = s.err := rfl
@[simp] theorem toIdle_errCode : (toIdle s).errCode = s.errCode := rfl
@[simp] theorem toIdle_klen : (toIdle s).klen = s.klen := rfl
@[simp] theorem toIdle_sector : (toIdle s).sector = s.sector := rfl
@[simp] theorem toIdle_src : (toIdle s).src = s.src := rfl
@[simp] theorem toIdle_dst : (toIdle s).dst = s.dst := rfl
@[simp] theorem toIdle_len : (toIdle s).len = s.len := rfl
@[simp] theorem toIdle_dcap : (toIdle s).dcap = s.dcap := rfl
@[simp] theorem toIdle_t : (toIdle s).t = s.t := rfl
@[simp] theorem toIdle_key : (toIdle s).key = s.key := rfl
@[simp] theorem toIdle_slots : (toIdle s).slots = s.slots := rfl
@[simp] theorem toIdle_w : (toIdle s).w = s.w := rfl
@[simp] theorem toIdle_w1 : (toIdle s).w1 = s.w1 := rfl
@[simp] theorem toIdle_cc : (toIdle s).cc = s.cc := rfl
@[simp] theorem toIdle_tail : (toIdle s).tail = s.tail := rfl
@[simp] theorem toIdle_blk : (toIdle s).blk = s.blk := rfl
@[simp] theorem toIdle_mem : (toIdle s).mem = s.mem := rfl
@[simp] theorem toIdle_draws : (toIdle s).draws = s.draws := rfl
@[simp] theorem toIdle_claims : (toIdle s).claims = s.claims := rfl
@[simp] theorem toIdle_inputs : (toIdle s).inputs = s.inputs := rfl
@[simp] theorem toIdle_replies : (toIdle s).replies = s.replies := rfl

/-! ### finish -/

@[simp] theorem finish_phase (e : Option CmdError) : (finish e s).phase = .idle := rfl
@[simp] theorem finish_cmdReg (e : Option CmdError) : (finish e s).cmdReg = s.cmdReg := rfl
@[simp] theorem finish_done (e : Option CmdError) : (finish e s).done = true := rfl
@[simp] theorem finish_err (e : Option CmdError) : (finish e s).err = e.isSome := rfl
@[simp] theorem finish_errCode (e : Option CmdError) : (finish e s).errCode = (e.map CmdError.code).getD 0#4 := rfl
@[simp] theorem finish_klen (e : Option CmdError) : (finish e s).klen = s.klen := rfl
@[simp] theorem finish_sector (e : Option CmdError) : (finish e s).sector = s.sector := rfl
@[simp] theorem finish_src (e : Option CmdError) : (finish e s).src = s.src := rfl
@[simp] theorem finish_dst (e : Option CmdError) : (finish e s).dst = s.dst := rfl
@[simp] theorem finish_len (e : Option CmdError) : (finish e s).len = s.len := rfl
@[simp] theorem finish_dcap (e : Option CmdError) : (finish e s).dcap = s.dcap := rfl
@[simp] theorem finish_t (e : Option CmdError) : (finish e s).t = s.t := rfl
@[simp] theorem finish_key (e : Option CmdError) : (finish e s).key = s.key := rfl
@[simp] theorem finish_slots (e : Option CmdError) : (finish e s).slots = s.slots := rfl
@[simp] theorem finish_w (e : Option CmdError) : (finish e s).w = none := rfl
@[simp] theorem finish_w1 (e : Option CmdError) : (finish e s).w1 = none := rfl
@[simp] theorem finish_cc (e : Option CmdError) : (finish e s).cc = none := rfl
@[simp] theorem finish_tail (e : Option CmdError) : (finish e s).tail = none := rfl
@[simp] theorem finish_blk (e : Option CmdError) : (finish e s).blk = none := rfl
@[simp] theorem finish_mem (e : Option CmdError) : (finish e s).mem = s.mem := rfl
@[simp] theorem finish_draws (e : Option CmdError) : (finish e s).draws = s.draws := rfl
@[simp] theorem finish_claims (e : Option CmdError) : (finish e s).claims = s.claims := rfl
@[simp] theorem finish_inputs (e : Option CmdError) : (finish e s).inputs = s.inputs := rfl
@[simp] theorem finish_replies (e : Option CmdError) : (finish e s).replies = s.replies := rfl

/-! ### endOk -/

@[simp] theorem endOk_phase : (endOk s).phase = .idle := rfl
@[simp] theorem endOk_cmdReg : (endOk s).cmdReg = s.cmdReg := rfl
@[simp] theorem endOk_done : (endOk s).done = true := rfl
@[simp] theorem endOk_err : (endOk s).err = false := rfl
@[simp] theorem endOk_errCode : (endOk s).errCode = 0#4 := rfl
@[simp] theorem endOk_klen : (endOk s).klen = s.klen := rfl
@[simp] theorem endOk_sector : (endOk s).sector = s.sector := rfl
@[simp] theorem endOk_src : (endOk s).src = s.src := rfl
@[simp] theorem endOk_dst : (endOk s).dst = s.dst := rfl
@[simp] theorem endOk_len : (endOk s).len = s.len := rfl
@[simp] theorem endOk_dcap : (endOk s).dcap = s.dcap := rfl
@[simp] theorem endOk_t : (endOk s).t = s.t := rfl
@[simp] theorem endOk_key : (endOk s).key = s.key := rfl
@[simp] theorem endOk_slots : (endOk s).slots = s.slots := rfl
@[simp] theorem endOk_w : (endOk s).w = none := rfl
@[simp] theorem endOk_w1 : (endOk s).w1 = none := rfl
@[simp] theorem endOk_cc : (endOk s).cc = none := rfl
@[simp] theorem endOk_tail : (endOk s).tail = none := rfl
@[simp] theorem endOk_blk : (endOk s).blk = none := rfl
@[simp] theorem endOk_mem : (endOk s).mem = s.mem := rfl
@[simp] theorem endOk_draws : (endOk s).draws = s.draws := rfl
@[simp] theorem endOk_claims : (endOk s).claims = s.claims := rfl
@[simp] theorem endOk_inputs : (endOk s).inputs = s.inputs := rfl
@[simp] theorem endOk_replies : (endOk s).replies = s.replies := rfl

/-! ### raise -/

@[simp] theorem raise_phase (e : CmdError) : (raise e s).phase = .idle := rfl
@[simp] theorem raise_cmdReg (e : CmdError) : (raise e s).cmdReg = s.cmdReg := rfl
@[simp] theorem raise_done (e : CmdError) : (raise e s).done = true := rfl
@[simp] theorem raise_err (e : CmdError) : (raise e s).err = true := rfl
@[simp] theorem raise_errCode (e : CmdError) : (raise e s).errCode = e.code := rfl
@[simp] theorem raise_klen (e : CmdError) : (raise e s).klen = s.klen := rfl
@[simp] theorem raise_sector (e : CmdError) : (raise e s).sector = s.sector := rfl
@[simp] theorem raise_src (e : CmdError) : (raise e s).src = s.src := rfl
@[simp] theorem raise_dst (e : CmdError) : (raise e s).dst = s.dst := rfl
@[simp] theorem raise_len (e : CmdError) : (raise e s).len = s.len := rfl
@[simp] theorem raise_dcap (e : CmdError) : (raise e s).dcap = s.dcap := rfl
@[simp] theorem raise_t (e : CmdError) : (raise e s).t = s.t := rfl
@[simp] theorem raise_key (e : CmdError) : (raise e s).key = s.key := rfl
@[simp] theorem raise_slots (e : CmdError) : (raise e s).slots = s.slots := rfl
@[simp] theorem raise_w (e : CmdError) : (raise e s).w = none := rfl
@[simp] theorem raise_w1 (e : CmdError) : (raise e s).w1 = none := rfl
@[simp] theorem raise_cc (e : CmdError) : (raise e s).cc = none := rfl
@[simp] theorem raise_tail (e : CmdError) : (raise e s).tail = none := rfl
@[simp] theorem raise_blk (e : CmdError) : (raise e s).blk = none := rfl
@[simp] theorem raise_mem (e : CmdError) : (raise e s).mem = s.mem := rfl
@[simp] theorem raise_draws (e : CmdError) : (raise e s).draws = s.draws := rfl
@[simp] theorem raise_claims (e : CmdError) : (raise e s).claims = s.claims := rfl
@[simp] theorem raise_inputs (e : CmdError) : (raise e s).inputs = s.inputs := rfl
@[simp] theorem raise_replies (e : CmdError) : (raise e s).replies = s.replies := rfl

/-! ### startCommand -/

@[simp] theorem startCommand_phase (c : BitVec 32) : (startCommand c s).phase = .busy := rfl
@[simp] theorem startCommand_cmdReg (c : BitVec 32) : (startCommand c s).cmdReg = c := rfl
@[simp] theorem startCommand_done (c : BitVec 32) : (startCommand c s).done = s.done := rfl
@[simp] theorem startCommand_err (c : BitVec 32) : (startCommand c s).err = s.err := rfl
@[simp] theorem startCommand_errCode (c : BitVec 32) : (startCommand c s).errCode = s.errCode := rfl
@[simp] theorem startCommand_klen (c : BitVec 32) : (startCommand c s).klen = s.klen := rfl
@[simp] theorem startCommand_sector (c : BitVec 32) : (startCommand c s).sector = s.sector := rfl
@[simp] theorem startCommand_src (c : BitVec 32) : (startCommand c s).src = s.src := rfl
@[simp] theorem startCommand_dst (c : BitVec 32) : (startCommand c s).dst = s.dst := rfl
@[simp] theorem startCommand_len (c : BitVec 32) : (startCommand c s).len = s.len := rfl
@[simp] theorem startCommand_dcap (c : BitVec 32) : (startCommand c s).dcap = s.dcap := rfl
@[simp] theorem startCommand_t (c : BitVec 32) : (startCommand c s).t = s.t := rfl
@[simp] theorem startCommand_key (c : BitVec 32) : (startCommand c s).key = s.key := rfl
@[simp] theorem startCommand_slots (c : BitVec 32) : (startCommand c s).slots = s.slots := rfl
@[simp] theorem startCommand_w (c : BitVec 32) : (startCommand c s).w = s.w := rfl
@[simp] theorem startCommand_w1 (c : BitVec 32) : (startCommand c s).w1 = s.w1 := rfl
@[simp] theorem startCommand_cc (c : BitVec 32) : (startCommand c s).cc = s.cc := rfl
@[simp] theorem startCommand_tail (c : BitVec 32) : (startCommand c s).tail = s.tail := rfl
@[simp] theorem startCommand_blk (c : BitVec 32) : (startCommand c s).blk = s.blk := rfl
@[simp] theorem startCommand_mem (c : BitVec 32) : (startCommand c s).mem = s.mem := rfl
@[simp] theorem startCommand_draws (c : BitVec 32) : (startCommand c s).draws = s.draws := rfl
@[simp] theorem startCommand_claims (c : BitVec 32) : (startCommand c s).claims = s.claims := rfl
@[simp] theorem startCommand_inputs (c : BitVec 32) : (startCommand c s).inputs = s.inputs := rfl
@[simp] theorem startCommand_replies (c : BitVec 32) : (startCommand c s).replies = s.replies := rfl

/-! ### addClaim -/

@[simp] theorem addClaim_phase (hw : Hw) (c : BitVec 32) : (addClaim hw c s).phase = s.phase := rfl
@[simp] theorem addClaim_cmdReg (hw : Hw) (c : BitVec 32) : (addClaim hw c s).cmdReg = s.cmdReg := rfl
@[simp] theorem addClaim_done (hw : Hw) (c : BitVec 32) : (addClaim hw c s).done = s.done := rfl
@[simp] theorem addClaim_err (hw : Hw) (c : BitVec 32) : (addClaim hw c s).err = s.err := rfl
@[simp] theorem addClaim_errCode (hw : Hw) (c : BitVec 32) : (addClaim hw c s).errCode = s.errCode := rfl
@[simp] theorem addClaim_klen (hw : Hw) (c : BitVec 32) : (addClaim hw c s).klen = s.klen := rfl
@[simp] theorem addClaim_sector (hw : Hw) (c : BitVec 32) : (addClaim hw c s).sector = s.sector := rfl
@[simp] theorem addClaim_src (hw : Hw) (c : BitVec 32) : (addClaim hw c s).src = s.src := rfl
@[simp] theorem addClaim_dst (hw : Hw) (c : BitVec 32) : (addClaim hw c s).dst = s.dst := rfl
@[simp] theorem addClaim_len (hw : Hw) (c : BitVec 32) : (addClaim hw c s).len = s.len := rfl
@[simp] theorem addClaim_dcap (hw : Hw) (c : BitVec 32) : (addClaim hw c s).dcap = s.dcap := rfl
@[simp] theorem addClaim_t (hw : Hw) (c : BitVec 32) : (addClaim hw c s).t = s.t := rfl
@[simp] theorem addClaim_key (hw : Hw) (c : BitVec 32) : (addClaim hw c s).key = s.key := rfl
@[simp] theorem addClaim_slots (hw : Hw) (c : BitVec 32) : (addClaim hw c s).slots = s.slots := rfl
@[simp] theorem addClaim_w (hw : Hw) (c : BitVec 32) : (addClaim hw c s).w = s.w := rfl
@[simp] theorem addClaim_w1 (hw : Hw) (c : BitVec 32) : (addClaim hw c s).w1 = s.w1 := rfl
@[simp] theorem addClaim_cc (hw : Hw) (c : BitVec 32) : (addClaim hw c s).cc = s.cc := rfl
@[simp] theorem addClaim_tail (hw : Hw) (c : BitVec 32) : (addClaim hw c s).tail = s.tail := rfl
@[simp] theorem addClaim_blk (hw : Hw) (c : BitVec 32) : (addClaim hw c s).blk = s.blk := rfl
@[simp] theorem addClaim_mem (hw : Hw) (c : BitVec 32) : (addClaim hw c s).mem = s.mem := rfl
@[simp] theorem addClaim_draws (hw : Hw) (c : BitVec 32) : (addClaim hw c s).draws = s.draws := rfl
@[simp] theorem addClaim_claims (hw : Hw) (c : BitVec 32) : (addClaim hw c s).claims = if usesBuffers c then s.currentClaim hw :: s.claims else s.claims := rfl
@[simp] theorem addClaim_inputs (hw : Hw) (c : BitVec 32) : (addClaim hw c s).inputs = s.inputs := rfl
@[simp] theorem addClaim_replies (hw : Hw) (c : BitVec 32) : (addClaim hw c s).replies = s.replies := rfl

/-! ### issue -/

@[simp] theorem issue_phase (hw : Hw) (c : BitVec 32) : (issue hw c s).phase = .busy := rfl
@[simp] theorem issue_cmdReg (hw : Hw) (c : BitVec 32) : (issue hw c s).cmdReg = c := rfl
@[simp] theorem issue_done (hw : Hw) (c : BitVec 32) : (issue hw c s).done = false := rfl
@[simp] theorem issue_err (hw : Hw) (c : BitVec 32) : (issue hw c s).err = false := rfl
@[simp] theorem issue_errCode (hw : Hw) (c : BitVec 32) : (issue hw c s).errCode = 0#4 := rfl
@[simp] theorem issue_klen (hw : Hw) (c : BitVec 32) : (issue hw c s).klen = s.klen := rfl
@[simp] theorem issue_sector (hw : Hw) (c : BitVec 32) : (issue hw c s).sector = s.sector := rfl
@[simp] theorem issue_src (hw : Hw) (c : BitVec 32) : (issue hw c s).src = s.src := rfl
@[simp] theorem issue_dst (hw : Hw) (c : BitVec 32) : (issue hw c s).dst = s.dst := rfl
@[simp] theorem issue_len (hw : Hw) (c : BitVec 32) : (issue hw c s).len = s.len := rfl
@[simp] theorem issue_dcap (hw : Hw) (c : BitVec 32) : (issue hw c s).dcap = s.dcap := rfl
@[simp] theorem issue_t (hw : Hw) (c : BitVec 32) : (issue hw c s).t = s.t := rfl
@[simp] theorem issue_key (hw : Hw) (c : BitVec 32) : (issue hw c s).key = s.key := rfl
@[simp] theorem issue_slots (hw : Hw) (c : BitVec 32) : (issue hw c s).slots = s.slots := rfl
@[simp] theorem issue_w (hw : Hw) (c : BitVec 32) : (issue hw c s).w = s.w := rfl
@[simp] theorem issue_w1 (hw : Hw) (c : BitVec 32) : (issue hw c s).w1 = s.w1 := rfl
@[simp] theorem issue_cc (hw : Hw) (c : BitVec 32) : (issue hw c s).cc = s.cc := rfl
@[simp] theorem issue_tail (hw : Hw) (c : BitVec 32) : (issue hw c s).tail = s.tail := rfl
@[simp] theorem issue_blk (hw : Hw) (c : BitVec 32) : (issue hw c s).blk = s.blk := rfl
@[simp] theorem issue_mem (hw : Hw) (c : BitVec 32) : (issue hw c s).mem = s.mem := rfl
@[simp] theorem issue_draws (hw : Hw) (c : BitVec 32) : (issue hw c s).draws = s.draws := rfl
@[simp] theorem issue_claims (hw : Hw) (c : BitVec 32) : (issue hw c s).claims = if usesBuffers c then s.currentClaim hw :: s.claims else s.claims := rfl
@[simp] theorem issue_inputs (hw : Hw) (c : BitVec 32) : (issue hw c s).inputs = s.inputs := rfl
@[simp] theorem issue_replies (hw : Hw) (c : BitVec 32) : (issue hw c s).replies = s.replies := rfl

/-! ### spoilDst -/

@[simp] theorem spoilDst_phase (hw : Hw) : (spoilDst hw s).phase = s.phase := rfl
@[simp] theorem spoilDst_cmdReg (hw : Hw) : (spoilDst hw s).cmdReg = s.cmdReg := rfl
@[simp] theorem spoilDst_done (hw : Hw) : (spoilDst hw s).done = s.done := rfl
@[simp] theorem spoilDst_err (hw : Hw) : (spoilDst hw s).err = s.err := rfl
@[simp] theorem spoilDst_errCode (hw : Hw) : (spoilDst hw s).errCode = s.errCode := rfl
@[simp] theorem spoilDst_klen (hw : Hw) : (spoilDst hw s).klen = s.klen := rfl
@[simp] theorem spoilDst_sector (hw : Hw) : (spoilDst hw s).sector = s.sector := rfl
@[simp] theorem spoilDst_src (hw : Hw) : (spoilDst hw s).src = s.src := rfl
@[simp] theorem spoilDst_dst (hw : Hw) : (spoilDst hw s).dst = s.dst := rfl
@[simp] theorem spoilDst_len (hw : Hw) : (spoilDst hw s).len = s.len := rfl
@[simp] theorem spoilDst_dcap (hw : Hw) : (spoilDst hw s).dcap = s.dcap := rfl
@[simp] theorem spoilDst_t (hw : Hw) : (spoilDst hw s).t = s.t := rfl
@[simp] theorem spoilDst_key (hw : Hw) : (spoilDst hw s).key = s.key := rfl
@[simp] theorem spoilDst_slots (hw : Hw) : (spoilDst hw s).slots = s.slots := rfl
@[simp] theorem spoilDst_w (hw : Hw) : (spoilDst hw s).w = s.w := rfl
@[simp] theorem spoilDst_w1 (hw : Hw) : (spoilDst hw s).w1 = s.w1 := rfl
@[simp] theorem spoilDst_cc (hw : Hw) : (spoilDst hw s).cc = s.cc := rfl
@[simp] theorem spoilDst_tail (hw : Hw) : (spoilDst hw s).tail = s.tail := rfl
@[simp] theorem spoilDst_blk (hw : Hw) : (spoilDst hw s).blk = s.blk := rfl
@[simp] theorem spoilDst_mem (hw : Hw) : (spoilDst hw s).mem = memWrite s.mem (s.dstAddr hw) (freeBytes hw s.draws (s.dstEnd hw - s.dstAddr hw)) := rfl
@[simp] theorem spoilDst_draws (hw : Hw) : (spoilDst hw s).draws = s.draws + 1 := rfl
@[simp] theorem spoilDst_claims (hw : Hw) : (spoilDst hw s).claims = s.claims := rfl
@[simp] theorem spoilDst_inputs (hw : Hw) : (spoilDst hw s).inputs = s.inputs := rfl
@[simp] theorem spoilDst_replies (hw : Hw) : (spoilDst hw s).replies = s.replies := rfl

/-! ### reply -/

@[simp] theorem reply_phase (r : Reply) : (reply r s).phase = s.phase := rfl
@[simp] theorem reply_cmdReg (r : Reply) : (reply r s).cmdReg = s.cmdReg := rfl
@[simp] theorem reply_done (r : Reply) : (reply r s).done = s.done := rfl
@[simp] theorem reply_err (r : Reply) : (reply r s).err = s.err := rfl
@[simp] theorem reply_errCode (r : Reply) : (reply r s).errCode = s.errCode := rfl
@[simp] theorem reply_klen (r : Reply) : (reply r s).klen = s.klen := rfl
@[simp] theorem reply_sector (r : Reply) : (reply r s).sector = s.sector := rfl
@[simp] theorem reply_src (r : Reply) : (reply r s).src = s.src := rfl
@[simp] theorem reply_dst (r : Reply) : (reply r s).dst = s.dst := rfl
@[simp] theorem reply_len (r : Reply) : (reply r s).len = s.len := rfl
@[simp] theorem reply_dcap (r : Reply) : (reply r s).dcap = s.dcap := rfl
@[simp] theorem reply_t (r : Reply) : (reply r s).t = s.t := rfl
@[simp] theorem reply_key (r : Reply) : (reply r s).key = s.key := rfl
@[simp] theorem reply_slots (r : Reply) : (reply r s).slots = s.slots := rfl
@[simp] theorem reply_w (r : Reply) : (reply r s).w = s.w := rfl
@[simp] theorem reply_w1 (r : Reply) : (reply r s).w1 = s.w1 := rfl
@[simp] theorem reply_cc (r : Reply) : (reply r s).cc = s.cc := rfl
@[simp] theorem reply_tail (r : Reply) : (reply r s).tail = s.tail := rfl
@[simp] theorem reply_blk (r : Reply) : (reply r s).blk = s.blk := rfl
@[simp] theorem reply_mem (r : Reply) : (reply r s).mem = s.mem := rfl
@[simp] theorem reply_draws (r : Reply) : (reply r s).draws = if s.busy then s.draws + 1 else s.draws := rfl
@[simp] theorem reply_claims (r : Reply) : (reply r s).claims = s.claims := rfl
@[simp] theorem reply_inputs (r : Reply) : (reply r s).inputs = s.inputs := rfl
@[simp] theorem reply_replies (r : Reply) : (reply r s).replies = s.replies ++ [r] := rfl

/-! ### dropClaims -/

@[simp] theorem dropClaims_phase (r : Nat) : (dropClaims r s).phase = s.phase := rfl
@[simp] theorem dropClaims_cmdReg (r : Nat) : (dropClaims r s).cmdReg = s.cmdReg := rfl
@[simp] theorem dropClaims_done (r : Nat) : (dropClaims r s).done = s.done := rfl
@[simp] theorem dropClaims_err (r : Nat) : (dropClaims r s).err = s.err := rfl
@[simp] theorem dropClaims_errCode (r : Nat) : (dropClaims r s).errCode = s.errCode := rfl
@[simp] theorem dropClaims_klen (r : Nat) : (dropClaims r s).klen = s.klen := rfl
@[simp] theorem dropClaims_sector (r : Nat) : (dropClaims r s).sector = s.sector := rfl
@[simp] theorem dropClaims_src (r : Nat) : (dropClaims r s).src = s.src := rfl
@[simp] theorem dropClaims_dst (r : Nat) : (dropClaims r s).dst = s.dst := rfl
@[simp] theorem dropClaims_len (r : Nat) : (dropClaims r s).len = s.len := rfl
@[simp] theorem dropClaims_dcap (r : Nat) : (dropClaims r s).dcap = s.dcap := rfl
@[simp] theorem dropClaims_t (r : Nat) : (dropClaims r s).t = s.t := rfl
@[simp] theorem dropClaims_key (r : Nat) : (dropClaims r s).key = s.key := rfl
@[simp] theorem dropClaims_slots (r : Nat) : (dropClaims r s).slots = s.slots := rfl
@[simp] theorem dropClaims_w (r : Nat) : (dropClaims r s).w = s.w := rfl
@[simp] theorem dropClaims_w1 (r : Nat) : (dropClaims r s).w1 = s.w1 := rfl
@[simp] theorem dropClaims_cc (r : Nat) : (dropClaims r s).cc = s.cc := rfl
@[simp] theorem dropClaims_tail (r : Nat) : (dropClaims r s).tail = s.tail := rfl
@[simp] theorem dropClaims_blk (r : Nat) : (dropClaims r s).blk = s.blk := rfl
@[simp] theorem dropClaims_mem (r : Nat) : (dropClaims r s).mem = s.mem := rfl
@[simp] theorem dropClaims_draws (r : Nat) : (dropClaims r s).draws = s.draws := rfl
@[simp] theorem dropClaims_claims (r : Nat) : (dropClaims r s).claims = if r = 1 ∧ s.busy = false then [] else s.claims := rfl
@[simp] theorem dropClaims_inputs (r : Nat) : (dropClaims r s).inputs = s.inputs := rfl
@[simp] theorem dropClaims_replies (r : Nat) : (dropClaims r s).replies = s.replies := rfl

end Sys2Proof.Machine
end

