-- ==== Sys2Proof/Laws/Commands.lean ====
section
/-! SUPPORT. What each shared operation and each step can do, said once. -/

namespace Sys2Proof.Machine

/-! ### Derived views -/

@[simp] theorem busy_eq_true (s : State) : s.busy = true ↔ s.phase = .busy := by
  cases h : s.phase <;> simp [State.busy, h]

@[simp] theorem busy_eq_false (s : State) : s.busy = false ↔ s.phase = .idle := by
  cases h : s.phase <;> simp [State.busy, h]

@[simp] theorem keyed_eq_true (s : State) : s.keyed = true ↔ ∃ k, s.slots = some k := by
  simp [State.keyed, Option.isSome_iff_exists]

theorem workEmpty_finish (e : Option CmdError) (s : State) : WorkEmpty (finish e s) :=
  ⟨rfl, rfl, rfl, rfl, rfl⟩

theorem endedOk_endOk (s : State) : EndedOk (endOk s) :=
  ⟨rfl, rfl, rfl, rfl, workEmpty_finish _ _⟩

theorem endedWith_raise (e : CmdError) (s : State) : EndedWith e (raise e s) :=
  ⟨rfl, rfl, rfl, rfl, workEmpty_finish _ _⟩

theorem sameOperands_refl (s : State) : SameOperands s s :=
  ⟨rfl, rfl, rfl, rfl, rfl, rfl, rfl, rfl, rfl, rfl, rfl⟩

theorem sameOperands_finish {s t : State} (e : Option CmdError) (h : SameOperands s t) :
    SameOperands s (finish e t) :=
  ⟨h.1, h.2, h.3, h.4, h.5, h.6, h.7, h.8, h.9, h.10, h.11⟩

theorem onlyStatus_raise (e : CmdError) (s : State) : OnlyStatus s (raise e s) :=
  ⟨sameOperands_finish _ (sameOperands_refl s), rfl, rfl, fun _ => rfl⟩

/-! ### Raising, and spoiling the destination -/

theorem sameOperands_spoilDst (hw : Hw) (s : State) : SameOperands s (spoilDst hw s) :=
  ⟨rfl, rfl, rfl, rfl, rfl, rfl, rfl, rfl, rfl, rfl, rfl⟩

/-- Spoiling writes nothing outside `DST <= a < min(DST+DCAP, 2^AW)`. -/
theorem sameMemoryOutside_spoilDst (hw : Hw) (s : State) :
    SameMemoryOutside (s.dstAddr hw) (s.dstEnd hw) s (spoilDst hw s) := by
  intro a ha
  rw [spoilDst_mem]
  refine byteAt_memWrite_other _ _ _ _ ?_
  rw [freeBytes_length]
  omega

/-! ### Sector commands -/

/-- No buffer error is raised exactly when the buffers are in order. -/
theorem bufferError_eq_none (hw : Hw) (s : State) :
    bufferError hw s = none ↔ SectorReady hw s := by
  unfold bufferError wraps overlaps
  constructor
  · intro h
    split at h
    · cases h
    · split at h
      · cases h
      · split at h
        · cases h
        · split at h
          · cases h
          · rename_i h1 h2 h3 h4
            simp only [Bool.or_eq_true, decide_eq_true_eq, Bool.and_eq_true, not_or, not_and] at *
            refine ⟨by omega, by omega, by omega, by omega, ?_⟩
            by_cases he : s.dstAddr hw = s.srcAddr hw
            · exact .inl he
            · right
              by_cases h5 : s.srcAddr hw < s.dstAddr hw + s.dcapVal hw
              · have := h4 ⟨he, h5⟩
                omega
              · omega
  · rintro ⟨h1, h2, h3, h4, h5⟩
    rw [if_neg (by omega), if_neg (by omega), if_neg, if_neg]
    · simp only [Bool.and_eq_true, decide_eq_true_eq, not_and]
      omega
    · simp only [Bool.or_eq_true, decide_eq_true_eq]
      omega

/-- All the buffer checks can answer, each with the conditions it answers it under. -/
theorem bufferError_cases (hw : Hw) (s : State) :
    (s.lenVal hw < 16 ∧ bufferError hw s = some .invalidInputLength) ∨
    (16 ≤ s.lenVal hw ∧ s.dcapVal hw < s.lenVal hw ∧
      bufferError hw s = some .bufferTooSmall) ∨
    (16 ≤ s.lenVal hw ∧ s.lenVal hw ≤ s.dcapVal hw ∧
      (addrSpace hw < s.srcAddr hw + s.lenVal hw ∨ addrSpace hw < s.dstAddr hw + s.dcapVal hw ∨
        (s.dstAddr hw ≠ s.srcAddr hw ∧ s.srcAddr hw < s.dstAddr hw + s.dcapVal hw ∧
          s.dstAddr hw < s.srcAddr hw + s.lenVal hw)) ∧
      bufferError hw s = some .illegalRange) ∨
    (SectorReady hw s ∧ bufferError hw s = none) := by
  by_cases hr : bufferError hw s = none
  · exact .inr (.inr (.inr ⟨(bufferError_eq_none hw s).mp hr, hr⟩))
  by_cases h1 : s.lenVal hw < 16
  · exact .inl ⟨h1, by simp [bufferError, h1]⟩
  by_cases h2 : s.dcapVal hw < s.lenVal hw
  · exact .inr (.inl ⟨by omega, h2, by simp [bufferError, h1, h2]⟩)
  refine .inr (.inr (.inl ⟨by omega, by omega, ?_, ?_⟩))
  · by_contra h
    push Not at h
    refine hr ((bufferError_eq_none hw s).mpr ⟨by omega, by omega, by omega, by omega, ?_⟩)
    by_cases h5 : s.dstAddr hw = s.srcAddr hw
    · exact .inl h5
    · have := h.2.2 h5
      omega
  · unfold bufferError at hr ⊢
    rw [if_neg h1, if_neg h2] at *
    split
    · rfl
    · rename_i h
      rw [if_neg h] at hr
      split
      · rfl
      · rename_i h
        rw [if_neg h] at hr
        exact absurd rfl hr

/-- All a sector command can do. -/
theorem sectorCommand_cases (hw : Hw) (xts : KeyPair → BitVec 64 → Bytes → Bytes) (s : State) :
    (s.slots = none ∧ sectorCommand hw xts s = raise .illegalState s) ∨
    (∃ k e, s.slots = some k ∧ bufferError hw s = some e ∧
      sectorCommand hw xts s = raise e (if e.spoilsDst then spoilDst hw s else s)) ∨
    (∃ k, s.slots = some k ∧ SectorReady hw s ∧
      sectorCommand hw xts s =
        endOk ((s.setMem (sectorMem hw (xts k s.sector) s)).drawn)) := by
  unfold sectorCommand
  cases hk : s.slots with
  | none => exact .inl ⟨rfl, rfl⟩
  | some k =>
    cases he : bufferError hw s with
    | some e => exact .inr (.inl ⟨k, e, rfl, rfl, rfl⟩)
    | none => exact .inr (.inr ⟨k, rfl, (bufferError_eq_none hw s).mp he, rfl⟩)

/-- The result of a sector command that ends ok stands at `[DST .. DST+LEN)`. -/
theorem memRead_sectorMem (hw : Hw) (xts : Bytes → Bytes) {s : State} (hm : s.mem.wf = true)
    (hl : ∀ src : Bytes, src.length = s.lenVal hw → (xts src).length = s.lenVal hw) :
    memRead (sectorMem hw xts s) (s.dstAddr hw) (s.lenVal hw) =
      xts (memRead s.mem (s.srcAddr hw) (s.lenVal hw)) := by
  have h := hl _ (memRead_length s.mem (s.srcAddr hw) (s.lenVal hw))
  unfold sectorMem
  rw [memRead_memWrite_other _ _ (.inl le_rfl)]
  generalize xts (memRead s.mem (s.srcAddr hw) (s.lenVal hw)) = out at h ⊢
  rw [← h]
  exact memRead_memWrite _ _ hm

/-- A sector command that ends ok writes nothing outside `[DST .. DST+DCAP)`. -/
theorem byteAt_sectorMem_outside (hw : Hw) (xts : Bytes → Bytes) {s : State}
    (hd : s.lenVal hw ≤ s.dcapVal hw)
    (hl : ∀ src : Bytes, src.length = s.lenVal hw → (xts src).length = s.lenVal hw) {a : Nat}
    (ha : a < s.dstAddr hw ∨ s.dstAddr hw + s.dcapVal hw ≤ a) :
    (sectorMem hw xts s).byteAt a = s.mem.byteAt a := by
  unfold sectorMem
  rw [byteAt_memWrite_other _ _ _ _ (by rw [freeBytes_length]; omega),
    byteAt_memWrite_other _ _ _ _ (by rw [hl _ (memRead_length _ _ _)]; omega)]

/-! ### The other commands -/

/-- All XTS.NEW can do. -/
theorem xtsNewOn_cases (hw : Hw) (s : State) :
    (s.slots ≠ none ∧ xtsNewOn hw s = raise .illegalState s) ∨
    (s.slots = none ∧ keyMaterialOk hw s = false ∧ xtsNewOn hw s = raise .invalidKeyLength s) ∨
    (s.slots = none ∧ keyMaterialOk hw s = true ∧
      xtsNewOn hw s = endOk (s.setSlots (some s.keyHalves))) := by
  unfold xtsNewOn
  cases hk : s.slots with
  | some k => simp
  | none => cases hm : keyMaterialOk hw s <;> simp

/-- When key material is acceptable, spelled out. -/
theorem keyMaterialOk_iff (hw : Hw) (s : State) :
    keyMaterialOk hw s = true ↔
      s.klen.toNat % 2 = 0 ∧ (s.halfLen ≠ 0 ∧ s.halfLen ∈ hw.keyLens) ∧
        hw.keyOk s.keyHalves.k1 = true ∧ hw.keyOk s.keyHalves.k2 = true := by
  simp [keyMaterialOk, supportsLen, and_assoc]

/-- All TW.INIT can do. -/
theorem twInitOn_cases (hw : Hw) (s : State) :
    (s.slots = none ∧ twInitOn hw s = raise .illegalState s) ∨
    (∃ k, s.slots = some k ∧ twInitOn hw s = endOk (s.setT (tweakInitial hw k s.sector))) := by
  unfold twInitOn
  cases hk : s.slots <;> simp

/-- What each command answers: always a next state. -/
def execState (i : Instr) (s : State) : State :=
  match i with
  | .xtsNew => xtsNewOn Config.hw s
  | .xtsEnc => xtsEncOn Config.hw s
  | .xtsDec => xtsDecOn Config.hw s
  | .gfMula => endOk (s.setT (mulAlpha s.t))
  | .twInit => twInitOn Config.hw s
  | .twAdv => endOk (s.setT (advance s.t))
  | .xtsDrop => endOk (s.setSlots none)

theorem exec_eq (i : Instr) (s : State) : exec i s = .next (execState i s) := by
  cases i <;> rfl

/-! ### The step -/

/-- The engine's turn with a legal word runs its command. -/
theorem complete_ok {s : State} {i : Instr} (h : decode s.cmdReg = .ok i) :
    complete s = exec i s := by
  simp [complete, h]

/-- The engine's turn with an illegal word raises IllegalCommand. -/
theorem complete_error {s : State} {e : DecodeError} (h : decode s.cmdReg = .error e) :
    complete s = .next (raise .illegalCommand s) := by
  simp [complete, h]

/-- The engine's turn always answers a next state. -/
theorem complete_next (s : State) : ∃ t, complete s = .next t := by
  cases h : decode s.cmdReg with
  | ok i => exact ⟨_, (complete_ok h).trans (exec_eq i s)⟩
  | error e => exact ⟨_, complete_error h⟩

/-- When the engine is next and a command is in flight, the step completes it. -/
theorem step_engine {s : State} (hb : s.phase = .busy) (hn : s.engineNext = true) :
    step s = complete s.atEngineTurn := by
  have hb' : s.busy = true := (busy_eq_true s).mpr hb
  unfold step nextInput State.atEngineTurn
  unfold State.engineNext at hn
  split <;> rename_i heq <;> simp only [heq] at hn ⊢
  · simp [engineTurn, hb']
  · have : s.popInput.busy = true := (busy_eq_true _).mpr hb
    simp [engineTurn, this]
  · cases hn
  · simp [waitTurn, hb']
  · cases hn

/-- All a step can do. -/
theorem step_cases {s t : State} (h : step s = .next t) :
    (s.phase = .busy ∧ s.engineNext = true ∧ complete s.atEngineTurn = .next t) ∨
    (s.phase = .idle ∧ s.inputs = [] ∧ t = s) ∨
    (s.phase = .idle ∧ (∃ rest, s.inputs = .engine :: rest) ∧ t = s.popInput) ∨
    (s.phase = .idle ∧ (∃ rest, s.inputs = .wait :: rest) ∧
      hostAct Config.hw (.read 1) s.popInput = .next t) ∨
    (∃ a rest, s.inputs = .host a :: rest ∧ hostAct Config.hw a s.popInput = .next t) ∨
    (∃ rest, s.inputs = .reset :: rest ∧ t = resetEvent Config.hw s.popInput) := by
  by_cases he : s.phase = .busy ∧ s.engineNext = true
  · exact .inl ⟨he.1, he.2, (step_engine he.1 he.2) ▸ h⟩
  · right
    unfold step nextInput at h
    have hidle : s.phase ≠ .busy → s.phase = .idle := by cases s.phase <;> simp
    split at h <;> rename_i heq
    · have hn : s.engineNext = true := by simp [State.engineNext, heq]
      have hp := hidle fun hb => he ⟨hb, hn⟩
      have hb : s.busy = false := (busy_eq_false s).mpr hp
      simp only [engineTurn, hb, Bool.false_eq_true, if_false, Host.Outcome.next.injEq] at h
      exact .inl ⟨hp, heq, h.symm⟩
    · rename_i rest
      have hn : s.engineNext = true := by simp [State.engineNext, heq]
      have hp := hidle fun hb => he ⟨hb, hn⟩
      have hb : s.popInput.busy = false := (busy_eq_false _).mpr hp
      simp only [engineTurn, hb, Bool.false_eq_true, if_false, Host.Outcome.next.injEq] at h
      exact .inr (.inl ⟨hp, ⟨rest, heq⟩, h.symm⟩)
    · rename_i a rest
      exact .inr (.inr (.inr (.inl ⟨a, rest, heq, h⟩)))
    · rename_i rest
      have hp : s.phase = .idle := hidle fun hb => he ⟨hb, by
        simp [State.engineNext, heq, (busy_eq_true s).mpr hb]⟩
      have hb : s.busy = false := (busy_eq_false s).mpr hp
      simp only [waitTurn, hb, Bool.false_eq_true, if_false] at h
      exact .inr (.inr (.inl ⟨hp, ⟨rest, heq⟩, h⟩))
    · rename_i rest
      simp only [Host.Outcome.next.injEq] at h
      exact .inr (.inr (.inr (.inr ⟨rest, heq, h.symm⟩)))

end Sys2Proof.Machine
end

