-- ==== Sys2Proof/Laws/Gf128.lean ====
section
/-! SUPPORT. MulAlpha bit by bit (spec/40_gf128.md R100, R103). -/

namespace Sys2Proof.Machine

/-- Bit `k` of `MulAlpha(t)`: bit `k-1` of `t`, and the carry `t[127]` where 0x87 has a bit. -/
theorem mulAlpha_getLsbD (t : Block) (k : Nat) (hk : k < 128) :
    (mulAlpha t).getLsbD k =
      ((decide (0 < k) && t.getLsbD (k - 1)) ^^ (t.getLsbD 127 && (0x87#8).getLsbD k)) := by
  have hm : ∀ c : BitVec 1, 0x87#8 &&& mask8 c = if c.getLsbD 0 then 0x87#8 else 0#8 := by decide
  simp only [mulAlpha, hm, BitVec.getLsbD_xor, BitVec.getLsbD_append, BitVec.getLsbD_extractLsb',
    BitVec.getLsbD_setWidth]
  congr 1
  · by_cases h0 : k < 64
    · by_cases h1 : k = 0
      · subst h1; simp
      · have h2 : ¬ k < 1 := by omega
        have h3 : 0 < k := by omega
        have h4 : k - 1 < 63 := by omega
        have h5 : k - 1 < 64 := by omega
        simp [*]
    · by_cases h1 : k = 64
      · subst h1; simp
      · have h2 : ¬ k - 64 < 1 := by omega
        have h3 : 0 < k := by omega
        have h4 : k - 64 - 1 < 63 := by omega
        have h5 : k - 64 - 1 < 64 := by omega
        have h6 : 64 + (k - 64 - 1) = k - 1 := by omega
        simp [*]
  · simp only [hk, decide_true, Bool.true_and]
    split <;> simp_all

end Sys2Proof.Machine
end

