-- ==== Sys2Proof/Laws/HostPort.lean ====
section
/-! SUPPORT. What a step of the host can do, and what an address-wide register keeps. -/

namespace Sys2Proof.Machine

/-- A step whose next input is the host's is that action, with the input used up. -/
theorem step_host {s : State} {a : HostAction} {rest : List Input}
    (h : s.inputs = .host a :: rest) :
    step s = hostAct Config.hw a { s with inputs := rest } := by
  simp [step, nextInput, State.popInput, h]

/-- An address-wide register holds a written value modulo `2^AW`. -/
theorem addrVal_addrReg {hw : Hw} (h : hw.aw ≤ 64) (v : Nat) :
    addrVal hw (addrReg hw v) = v % 2 ^ hw.aw := by
  have hv : v % 2 ^ hw.aw < 2 ^ 64 :=
    lt_of_lt_of_le (Nat.mod_lt _ (Nat.two_pow_pos _)) (Nat.pow_le_pow_right (by norm_num) h)
  rw [addrVal, addrReg, addrSpace, BitVec.toNat_ofNat, Nat.mod_eq_of_lt hv, Nat.mod_mod]

/-- Two ranges meet exactly when some address lies in both. -/
theorem rangesMeet_eq_true (a n b m : Nat) :
    rangesMeet a n b m = true ↔ ∃ x, (a ≤ x ∧ x < a + n) ∧ b ≤ x ∧ x < b + m := by
  simp only [rangesMeet, Bool.and_eq_true, decide_eq_true_eq]
  constructor
  · intro h
    exact ⟨max a b, by omega, by omega⟩
  · rintro ⟨x, h, h'⟩
    omega

/-- All the host's own store can do. -/
theorem hostStore_cases (hw : Hw) (a : Nat) (bytes : Bytes) (s : State) :
    (addrSpace hw < a + bytes.length ∧ hostStore hw a bytes s = .fault .noSuchAddress) ∨
    (a + bytes.length ≤ addrSpace hw ∧
      (∃ c ∈ s.claims, rangesMeet a bytes.length c.src c.len = true) ∧
      hostStore hw a bytes s = .refused .sourceInFlight) ∨
    (a + bytes.length ≤ addrSpace hw ∧
      (∃ c ∈ s.claims, rangesMeet a bytes.length c.dst c.dcap = true) ∧
      hostStore hw a bytes s = .refused .destinationInFlight) ∨
    (a + bytes.length ≤ addrSpace hw ∧
      hostStore hw a bytes s = .next (s.setMem (memWrite s.mem a bytes))) := by
  unfold hostStore
  split
  · exact .inl ⟨‹_›, rfl⟩
  · have hr : a + bytes.length ≤ addrSpace hw := by omega
    split
    · exact .inr (.inl ⟨hr, List.any_eq_true.mp ‹_›, rfl⟩)
    · split
      · exact .inr (.inr (.inl ⟨hr, List.any_eq_true.mp ‹_›, rfl⟩))
      · exact .inr (.inr (.inr ⟨hr, rfl⟩))

/-- All the host's own load can do. -/
theorem hostLoad_cases (hw : Hw) (a n : Nat) (s : State) :
    (addrSpace hw < a + n ∧ hostLoad hw a n s = .fault .noSuchAddress) ∨
    (a + n ≤ addrSpace hw ∧ (∃ c ∈ s.claims, rangesMeet a n c.dst c.dcap = true) ∧
      hostLoad hw a n s = .refused .destinationInFlight) ∨
    (a + n ≤ addrSpace hw ∧
      hostLoad hw a n s = .next { s with replies := s.replies ++ [.bytes a (memRead s.mem a n)] }) := by
  unfold hostLoad
  split
  · exact .inl ⟨‹_›, rfl⟩
  · have hr : a + n ≤ addrSpace hw := by omega
    split
    · exact .inr (.inl ⟨hr, List.any_eq_true.mp ‹_›, rfl⟩)
    · exact .inr (.inr ⟨hr, rfl⟩)

end Sys2Proof.Machine
end

