-- ==== Sys2Proof/Laws/PerInstr.lean ====
section
/-! SUPPORT. Statements about every command as syntax, one lemma for each constructor. -/

namespace Sys2Proof.Laws

/-- A command's fields are well formed (spec/30_encoding.md R75, R79), and the decoder reads its word
back as that command and no other (R76, R78). -/
def DecodesBack.Statement (i : Instr) : Prop :=
  i.WellFormed ∧ decode (encode i) = .ok i ∧ decodeTableWord 32 (encode i).toNat = some i

theorem DecodesBack.xtsNew : DecodesBack.Statement .xtsNew := by
  unfold DecodesBack.Statement; decide
theorem DecodesBack.xtsEnc : DecodesBack.Statement .xtsEnc := by
  unfold DecodesBack.Statement; decide
theorem DecodesBack.xtsDec : DecodesBack.Statement .xtsDec := by
  unfold DecodesBack.Statement; decide
theorem DecodesBack.gfMula : DecodesBack.Statement .gfMula := by
  unfold DecodesBack.Statement; decide
theorem DecodesBack.twInit : DecodesBack.Statement .twInit := by
  unfold DecodesBack.Statement; decide
theorem DecodesBack.twAdv : DecodesBack.Statement .twAdv := by
  unfold DecodesBack.Statement; decide
theorem DecodesBack.xtsDrop : DecodesBack.Statement .xtsDrop := by
  unfold DecodesBack.Statement; decide

end Sys2Proof.Laws
end

