-- ==== Sys2Proof/Tests/Slice0.lean ====
section
/-! SUPPORT. Tests from the vectors of spec/95_test_vectors.md, a smoke test of each well-formedness
check, and for each obligation with hypotheses a state and operands that meet them. -/

namespace Sys2Proof.Tests
open Sys2Proof Sys2Proof.Machine

/-! ### Helpers -/

/-- `n` bytes written first byte first (spec/00_scope.md R11). -/
def bytesOf (n v : Nat) : Bytes :=
  (List.range n).map fun i => BitVec.ofNat 8 (v / 256 ^ (n - 1 - i))

/-- A block written first byte first. -/
def blockOf (v : Nat) : Block := blockOfBytes (bytesOf 16 v)

/-- A machine with byte sequences in memory. -/
def withMem (s : State) (a : Nat) (v : Bytes) : State := s.setMem (memWrite s.mem a v)

/-! ### Well-formedness refuses what is ill formed -/

/-- 95 V91: the word 0x12 has a reserved bit set. -/
theorem test_zero_refuses : (Cmd32.mk 2#4 1#28).zeroOk = false := by decide
theorem test_zero_refuses_top : (cmdFields 0x80000001#32).wellFormed = false := by decide
/-- 95 V88 to V90: opcodes 0x0, 0x8 and 0xF are reserved. -/
theorem test_op_refuses_zero : (Cmd32.mk 0#4 0#28).opOk = false := by decide
theorem test_op_refuses_high :
    (Cmd32.mk 8#4 0#28).opOk = false ∧ (Cmd32.mk 0xF#4 0#28).wellFormed = false := by decide
theorem test_script_refuses_scalar_of_bytes :
    (ScriptLine.wr .t 1).wellFormed = false ∧ (ScriptLine.rd .key).wellFormed = false := by decide
theorem test_script_refuses_bytes_of_scalar :
    (ScriptLine.wrb .klen 0 []).wellFormed = false ∧
    (ScriptLine.rdb .status).wellFormed = false := by decide

/-! ### Decoding: words written out from the table of spec/30_encoding.md R76 -/

theorem test_decode_new :
    decode 0b00000000000000000000000000000001#32 = .ok .xtsNew := by decide
theorem test_decode_enc :
    decode 0b00000000000000000000000000000010#32 = .ok .xtsEnc := by decide
theorem test_decode_dec :
    decode 0b00000000000000000000000000000011#32 = .ok .xtsDec := by decide
theorem test_decode_mula :
    decode 0b00000000000000000000000000000100#32 = .ok .gfMula := by decide
theorem test_decode_init :
    decode 0b00000000000000000000000000000101#32 = .ok .twInit := by decide
theorem test_decode_adv :
    decode 0b00000000000000000000000000000110#32 = .ok .twAdv := by decide
theorem test_decode_drop :
    decode 0b00000000000000000000000000000111#32 = .ok .xtsDrop := by decide
theorem test_decode_reserved_opcode :
    decode 0b00000000000000000000000000001000#32 = .error (.reservedOpcode 8#4) := by decide
theorem test_decode_reserved_bit :
    decode 0b00000000000000000000000000010010#32 = .error .reservedBitsSet := by decide

/-! ### The fixture cipher TOY16 (spec/95_test_vectors.md section 3) -/

def toyEnc (k : Bytes) (b : Block) : Block :=
  blockOfBytes ((List.range 16).map fun i =>
    (blockByte b ((i + 1) % 16) ^^^ k.getD ((i + 1) % 16) 0#8) + BitVec.ofNat 8 i)

def toyDec (k : Bytes) (c : Block) : Block :=
  blockOfBytes ((List.range 16).map fun i =>
    (blockByte c ((i + 15) % 16) - BitVec.ofNat 8 ((i + 15) % 16)) ^^^ k.getD i 0#8)

/-- The free values of the fixture are arbitrary. -/
def toy : Hw where
  aw := 32
  keyLens := [16]
  keyOk := fun k => k.length == 16
  enc := toyEnc
  dec := toyDec
  freeNat := fun n => n + 5
  freeByte := fun n i => BitVec.ofNat 8 (n + i + 0xd0)

theorem toy_lawful : toy.Lawful where
  aw_ge := by decide
  aw_le := by decide
  keyLens_ne := by decide
  keyLens_pos := by decide
  keyOk_len := by intro k hk; simpa [toy] using hk

theorem blockByte_ofRange (f : Nat → Byte) (i : Nat) (h : i < 16) :
    blockByte (blockOfBytes ((List.range 16).map f)) i = f i := by
  rw [blockByte_blockOfBytes _ i (by simpa using h) (by simp)]
  simp

theorem toy_inverse : toy.Inverse := by
  intro k b _
  constructor <;> refine block_ext fun i hi => ?_ <;>
    simp only [toy, toyEnc, toyDec, blockByte_ofRange _ _ hi,
      blockByte_ofRange _ _ (Nat.mod_lt _ (by norm_num : 0 < 16))]
  · have : ((i + 15) % 16 + 1) % 16 = i := by omega
    rw [this, BitVec.add_sub_cancel, BitVec.xor_assoc, BitVec.xor_self, BitVec.xor_zero]
  · have : ((i + 1) % 16 + 15) % 16 = i := by omega
    rw [this, BitVec.xor_assoc, BitVec.xor_self, BitVec.xor_zero, BitVec.sub_add_cancel]

/-- `KEY = 00 01 .. 1f`, as 95 section 3 uses it. -/
def toyKey : Bytes := bytesOf 32 0x000102030405060708090a0b0c0d0e0f101112131415161718191a1b1c1d1e1f

def toyPair : KeyPair := ⟨toyKey.take 16, toyKey.drop 16⟩

/-- KEY and KLEN loaded, UNKEYED. -/
def loaded (klen : Nat) : State :=
  { State.reset with key := memWrite [] 0 toyKey, klen := BitVec.ofNat 32 klen }

/-- A keyed core with SECTOR = 1 and buffers set. -/
def keyedAt (src dst len dcap : Nat) : State :=
  { State.reset with
    slots := some toyPair, sector := 1#64, src := BitVec.ofNat 64 src, dst := BitVec.ofNat 64 dst,
    len := BitVec.ofNat 64 len, dcap := BitVec.ofNat 64 dcap }

/-- The plaintext of V50 to V56: `a0 a1 ..`. -/
def plain (n : Nat) : Bytes := (List.range n).map fun i => BitVec.ofNat 8 (0xa0 + i)

/-! ### One command each -/

/-- 95 V20. -/
theorem test_mula_general :
    mulAlpha (blockOf 0x00112233445566778899aabbccddeeff) =
      blockOf 0x8722446688aaccee1033557799bbddff := by decide
/-- 95 V19: the reduction clears bits. -/
theorem test_mula_clears :
    mulAlpha (blockOf 0x430000000000000000000000000000c0) =
      blockOf 0x01000000000000000000000000000080 := by decide
/-- 95 V13 by TW.ADV: a bit crosses from the low word to the high word. -/
theorem test_adv_crosses :
    advance (blockOf 0x00000000000000800000000000000000) =
      blockOf 0x00000000000000000100000000000000 := by decide
/-- 95 V15 by TW.ADV: the carry alone. -/
theorem test_adv_carry :
    advance (blockOf 0x00000000000000000000000000000080) =
      blockOf 0x87000000000000000000000000000000 := by decide
/-- 95 V34. -/
theorem test_init_tweak :
    (twInitOn toy { keyedAt 0 0 0 0 with sector := 0x0123456789abcdef#64 }).t =
      blockOf 0xdcba9c76543a1c1f21232527292b2d0e := by decide
/-- 95 V87: TW.INIT with no key. -/
theorem test_init_unkeyed :
    (twInitOn toy State.reset).status = 0x00000056#32 ∧
    (twInitOn toy State.reset).t = State.reset.t := by decide
/-- 95 V60. -/
theorem test_new_ok :
    (xtsNewOn toy (loaded 32)).status = 0x0000000A#32 ∧
    (xtsNewOn toy (loaded 32)).slots = some toyPair := by decide
/-- 95 V62: an odd KLEN. -/
theorem test_new_odd :
    (xtsNewOn toy (loaded 31)).status = 0x00000016#32 ∧
    (xtsNewOn toy (loaded 31)).slots = none := by decide
/-- 95 V103: in place with slack, the 17 result bytes of V51. -/
theorem test_enc_in_place :
    memRead (xtsEncOn toy (withMem (keyedAt 0x1000 0x1000 17 24) 0x1000 (plain 17))).mem 0x1000 17 =
      bytesOf 17 0xa0a3a2bddcdf8ed9a8bb4aa5a452e7e1a2 := by decide
/-- 95 V83: BufferTooSmall. -/
theorem test_enc_small :
    (xtsEncOn toy (keyedAt 0x1000 0x2000 32 31)).status = 0x0000003E#32 := by decide
/-- 95 V51, decrypted. -/
theorem test_dec_partial :
    memRead (xtsDecOn toy (withMem (keyedAt 0x2000 0x5000 17 17) 0x2000
      (bytesOf 17 0xa0a3a2bddcdf8ed9a8bb4aa5a452e7e1a2))).mem 0x5000 17 = plain 17 := by decide
/-- 95 V84: InvalidInputLength wins over BufferTooSmall. -/
theorem test_dec_priority :
    (xtsDecOn toy (keyedAt 0x1000 0x2000 8 4)).status = 0x0000002E#32 := by decide
/-- XTS.DROP from KEYED (spec/44_construct_lifecycle.md R159). -/
theorem test_drop :
    exec .xtsDrop (keyedAt 0 0 0 0) =
      .next { keyedAt 0 0 0 0 with slots := none, done := true } := by rfl

/-- A placed word runs in the next step: XTS.DROP leaves only DONE set (R159). -/
theorem test_placed_word :
    ∃ t, step (State.reset.withFetchWord 32 7) = .next t ∧ t.status = 0x00000002#32 :=
  ⟨_, rfl, by decide⟩

/-! ### The source's ciphertext-stealing vector, 95 V2 -/

/-- The two block encryptions of V2's data key, read off its intermediate values. -/
def v2Enc (b : Block) : Block :=
  if b = blockOf 0x7e9c2289cba460e470222953439cdaa8 ^^^ blockOf 0x33fab707493702e77ff8d66ba9e6c6fe then
    blockOf 0xe49f6ee308ad449ecf56b313ef09c938 ^^^ blockOf 0x33fab707493702e77ff8d66ba9e6c6fe
  else if b =
      blockOf 0x92a5433d4dab2a3f6756b313ef09c938 ^^^ blockOf 0xe1f46f0f926e04cefff0add752cd8dfd then
    blockOf 0x9af624641d42b036377ef37b4a158f49 ^^^ blockOf 0xe1f46f0f926e04cefff0add752cd8dfd
  else 0#128

/-- V2: the arrangement of the stolen bytes and the order of the tweaks (R125; 90 C1). -/
theorem test_v2_stealing :
    xtsSector v2Enc (stealEnc v2Enc) (blockOf 0x33fab707493702e77ff8d66ba9e6c6fe)
      (bytesOf 25 0x7e9c2289cba460e470222953439cdaa892a5433d4dab2a3f67) =
      bytesOf 25 0x9af624641d42b036377ef37b4a158f49e49f6ee308ad449ecf := by decide

/-! ### Witnesses: for each obligation with hypotheses, what meets them

`AW` is open, so states over the machine's own hardware keep every number below 2^16. -/

/-- A core with the word `w` in flight. -/
def inFlight (w : BitVec 32) : State := { State.reset with phase := .busy, cmdReg := w }

/-- A core whose next input is `i`. -/
def expecting (i : Input) (s : State) : State := { s with inputs := [i] }

theorem wit_IllegalWordChangesOnlyStatus_bits :
    (inFlight 0x12#32).phase = .busy ∧ (inFlight 0x12#32).engineNext = true ∧
    IllegalWord (inFlight 0x12#32).cmdReg := by unfold IllegalWord; decide
theorem wit_IllegalWordChangesOnlyStatus_opcodes :
    IllegalWord 0x0#32 ∧ IllegalWord 0x8#32 ∧ IllegalWord 0xF#32 ∧ ¬ IllegalWord 0x7#32 := by
  unfold IllegalWord; decide

theorem wit_StepRunsTheDecodedCommand :
    (inFlight 7#32).phase = .busy ∧ (inFlight 7#32).engineNext = true ∧
    decode (inFlight 7#32).cmdReg = .ok .xtsDrop := by decide
theorem wit_StepRunsTheDecodedCommand_engine :
    (expecting .engine (inFlight 4#32)).phase = .busy ∧
    (expecting .engine (inFlight 4#32)).engineNext = true ∧
    decode (expecting .engine (inFlight 4#32)).cmdReg = .ok .gfMula := by decide

theorem wit_PlacedWordRunsNext : decode (BitVec.ofNat 32 4) = .ok .gfMula := by decide

/-- The bounds of the byte and step ranges. -/
theorem wit_MulAlphaBytewise : 1 ≤ 1 ∧ 1 < 16 ∧ 1 ≤ 15 ∧ 15 < 16 := by decide
theorem wit_MulAlphaIterates : 0 < 128 ∧ 127 < 128 ∧ 0 < 16 ∧ 15 < 16 := by decide
theorem wit_SeedIsLittleEndianSector : 7 < 16 ∧ 7 < 8 ∧ 15 < 16 ∧ ¬ 15 < 8 := by decide

theorem wit_TwInitDerivesInitialTweak : (keyedAt 0 0 0 0).slots = some toyPair := rfl
theorem wit_TweakSequenceByCommands : (keyedAt 0 0 0 0).slots = some toyPair := rfl

theorem wit_TweaksOfDifferentSectorsDiffer :
    toy.Inverse ∧ toy.keyOk toyPair.k2 = true ∧ (0#64 : BitVec 64) ≠ 1#64 :=
  ⟨toy_inverse, by decide, by decide⟩

/-- The first outcome needs a cipher that accepts a key: see the next witness. -/
theorem wit_XtsNewConstructsBothKeysOrNone :
    State.reset.slots = none ∧ State.reset.klen.toNat / 2 ∉ Config.hw.keyLens :=
  ⟨rfl, fun h => absurd (Config.hw_lawful.keyLens_pos _ h) (by decide)⟩

theorem wit_XtsNewSucceedsOnAnyHardware :
    toy.Lawful ∧ (loaded 32).slots = none ∧ (loaded 32).klen.toNat = 2 * 16 ∧ 16 ∈ toy.keyLens ∧
    toy.keyOk (memRead (loaded 32).key 0 16) = true ∧
    toy.keyOk (memRead (loaded 32).key 16 16) = true :=
  ⟨toy_lawful, by decide, by decide, by decide, by decide, by decide⟩

/-- XTS.DROP in flight on a keyed core. -/
theorem wit_KeySlotsChangeOnlyByNewDropReset_drop :
    ∃ t, step { keyedAt 0 0 0 0 with phase := .busy, cmdReg := 7#32 } = .next t ∧
      t.slots ≠ (keyedAt 0 0 0 0).slots :=
  ⟨_, rfl, by decide⟩
/-- Reset of a keyed core. -/
theorem wit_KeySlotsChangeOnlyByNewDropReset_reset :
    ∃ t, step (expecting .reset (keyedAt 0 0 0 0)) = .next t ∧
      t.slots ≠ (keyedAt 0 0 0 0).slots :=
  ⟨_, rfl, by simp [keyedAt, resetEvent, freeRegisters, State.reset]⟩

theorem wit_XexStepsInvert : toy.Inverse ∧ toy.keyOk toyPair.k1 = true := ⟨toy_inverse, by decide⟩

theorem wit_RegularPathBlocks :
    (plain 16).length = 16 * 1 ∧ 0 < 1 ∧ (plain 32).length = 16 * 2 ∧ 1 < 2 := by decide

/-- `rem = 1` and `rem = 15`, and `n = 2`, where a block lies before the last. -/
theorem wit_StealingPathBlocks :
    (plain 17).length = 16 * 1 + 1 ∧ (plain 47).length = 16 * 2 + 15 ∧ 0 < 2 - 1 := by decide
theorem wit_InverseStealingPathBlocks :
    (plain 17).length = 16 * 1 + 1 ∧ (plain 47).length = 16 * 2 + 15 ∧ 0 < 2 - 1 := by decide

theorem wit_SectorFunctionsPreserveLength : 16 ≤ (plain 16).length := by decide

theorem wit_DecryptUndoesEncrypt :
    toy.Inverse ∧ toy.keyOk toyPair.k1 = true ∧ 16 ≤ (plain 16).length :=
  ⟨toy_inverse, by decide, by decide⟩

/-- An address-wide register holds a number below 2^16 whatever `AW` is. -/
theorem addrVal_small {n : Nat} (h : n < 2 ^ 16) :
    addrVal Config.hw (BitVec.ofNat 64 n) = n := by
  have h1 : n < 2 ^ Config.hw.aw :=
    lt_of_lt_of_le h (Nat.pow_le_pow_right (by norm_num) Config.hw_lawful.aw_ge)
  have h2 : n < 2 ^ 64 := lt_trans h (by norm_num)
  rw [addrVal, addrSpace, BitVec.toNat_ofNat, Nat.mod_eq_of_lt h2, Nat.mod_eq_of_lt h1]

/-- What the buffer registers of `keyedAt` hold on the machine's own hardware. -/
theorem keyedAt_values {s d l c : Nat} (hs : s < 2 ^ 16) (hd : d < 2 ^ 16) (hl : l < 2 ^ 16)
    (hc : c < 2 ^ 16) :
    (keyedAt s d l c).srcAddr Config.hw = s ∧ (keyedAt s d l c).dstAddr Config.hw = d ∧
    (keyedAt s d l c).lenVal Config.hw = l ∧ (keyedAt s d l c).dcapVal Config.hw = c :=
  ⟨addrVal_small hs, addrVal_small hd, addrVal_small hl, addrVal_small hc⟩

theorem addrSpace_ge : 2 ^ 16 ≤ addrSpace Config.hw :=
  Nat.pow_le_pow_right (by norm_num) Config.hw_lawful.aw_ge

/-- Buffers in order below 2^16 are in order. -/
theorem keyedAt_ready {s d l c : Nat} (hl : 16 ≤ l) (hc : l ≤ c) (hs : s + l < 2 ^ 16)
    (hd : d + c < 2 ^ 16) (ha : d = s ∨ d + c ≤ s ∨ s + l ≤ d) :
    SectorReady Config.hw (keyedAt s d l c) := by
  obtain ⟨e1, e2, e3, e4⟩ :=
    keyedAt_values (s := s) (d := d) (l := l) (c := c) (by omega) (by omega) (by omega) (by omega)
  have := addrSpace_ge
  exact ⟨by omega, by omega, by omega, by omega, by omega⟩

/-- 95 V100: apart, the buffers touching; with the least LEN. -/
theorem wit_XtsEncEncryptsSector :
    (keyedAt 0x1000 0x1010 16 16).mem.wf = true ∧
    (keyedAt 0x1000 0x1010 16 16).slots = some toyPair ∧
    SectorReady Config.hw (keyedAt 0x1000 0x1010 16 16) :=
  ⟨rfl, rfl, keyedAt_ready (by decide) (by decide) (by decide) (by decide) (by decide)⟩
/-- 95 V103: in place, with slack. -/
theorem wit_XtsDecDecryptsSector :
    (keyedAt 0x1000 0x1000 17 24).mem.wf = true ∧
    (keyedAt 0x1000 0x1000 17 24).slots = some toyPair ∧
    SectorReady Config.hw (keyedAt 0x1000 0x1000 17 24) :=
  ⟨rfl, rfl, keyedAt_ready (by decide) (by decide) (by decide) (by decide) (by decide)⟩

/-- A sector command with buffers in order ends ok. -/
theorem ends_ok {s d l c : Nat} (h : SectorReady Config.hw (keyedAt s d l c)) :
    ∃ t, exec .xtsEnc (keyedAt s d l c) = .next t ∧ t.err = false := by
  rcases sectorCommand_cases Config.hw (xtsEnc Config.hw) (keyedAt s d l c) with
    ⟨h1, _⟩ | ⟨_, _, _, h1, _⟩ | ⟨_, _, _, h1⟩
  · cases h1
  · rw [(bufferError_eq_none _ _).mpr h] at h1
    cases h1
  · exact ⟨_, congrArg Host.Outcome.next h1, rfl⟩

theorem wit_InPlaceEqualsDisjoint_ok :
    isSectorCommand .xtsEnc ∧ (keyedAt 0x1000 0x1000 17 24).mem.wf = true ∧
    (keyedAt 0x1000 0x1000 17 24).slots = some toyPair ∧
    ∃ t, exec .xtsEnc (keyedAt 0x1000 0x1000 17 24) = .next t ∧ t.err = false :=
  ⟨.inl rfl, rfl, rfl,
    ends_ok (keyedAt_ready (by decide) (by decide) (by decide) (by decide) (by decide))⟩
/-- An overlap of a single byte. -/
theorem wit_InPlaceEqualsDisjoint_overlap :
    let s := keyedAt 0x1000 0x100F 16 16
    isSectorCommand .xtsDec ∧ (∃ t, exec .xtsDec s = .next t) ∧
    s.dstAddr Config.hw ≠ s.srcAddr Config.hw ∧
    s.srcAddr Config.hw < s.dstAddr Config.hw + s.dcapVal Config.hw ∧
    s.dstAddr Config.hw < s.srcAddr Config.hw + s.lenVal Config.hw := by
  intro s
  obtain ⟨e1, e2, e3, e4⟩ : s.srcAddr Config.hw = 0x1000 ∧ s.dstAddr Config.hw = 0x100F ∧
      s.lenVal Config.hw = 16 ∧ s.dcapVal Config.hw = 16 :=
    keyedAt_values (by decide) (by decide) (by decide) (by decide)
  exact ⟨.inr rfl, ⟨_, rfl⟩, by omega, by omega, by omega⟩

theorem wit_CommandRoundTrip :
    let s := keyedAt 0x1000 0x2000 17 17
    toy.Inverse ∧ toy.keyOk toyPair.k1 = true ∧ s.mem.wf = true ∧ s.slots = some toyPair ∧
    (xtsEncOn toy s).err = false ∧
    (xtsDecOn toy { xtsEncOn toy s with src := s.dst, dst := 0x1000#64, dcap := 20#64 }).err =
      false :=
  ⟨toy_inverse, by decide, by decide, by decide, by decide, by decide⟩

/-- No key. -/
theorem wit_SectorErrorsInOrder_state :
    isSectorCommand .xtsEnc ∧
    ¬ (State.reset.keyed = true ∧ SectorReady Config.hw State.reset) ∧
    State.reset.keyed = false :=
  ⟨.inl rfl, fun h => Bool.noConfusion h.1, rfl⟩
/-- LEN = 15. -/
theorem wit_SectorErrorsInOrder_length :
    let s := keyedAt 0x1000 0x2000 15 32
    ¬ (s.keyed = true ∧ SectorReady Config.hw s) ∧ s.keyed = true ∧ s.lenVal Config.hw < 16 := by
  intro s
  have e : s.lenVal Config.hw = 15 := addrVal_small (by decide)
  exact ⟨fun h => by have := h.2.len; omega, rfl, by omega⟩
/-- DCAP = LEN - 1. -/
theorem wit_SectorErrorsInOrder_capacity :
    let s := keyedAt 0x1000 0x2000 16 15
    ¬ (s.keyed = true ∧ SectorReady Config.hw s) ∧ s.keyed = true ∧ ¬ s.lenVal Config.hw < 16 ∧
    s.dcapVal Config.hw < s.lenVal Config.hw := by
  intro s
  have e : s.lenVal Config.hw = 16 := addrVal_small (by decide)
  have e' : s.dcapVal Config.hw = 15 := addrVal_small (by decide)
  exact ⟨fun h => by have := h.2.dcap; omega, rfl, by omega, by omega⟩
/-- An overlap of a single byte. -/
theorem wit_SectorErrorsInOrder_range :
    let s := keyedAt 0x1000 0x0FF1 16 16
    ¬ (s.keyed = true ∧ SectorReady Config.hw s) ∧ s.keyed = true ∧ ¬ s.lenVal Config.hw < 16 ∧
    ¬ s.dcapVal Config.hw < s.lenVal Config.hw := by
  intro s
  obtain ⟨e1, e2, e3, e4⟩ : s.srcAddr Config.hw = 0x1000 ∧ s.dstAddr Config.hw = 0x0FF1 ∧
      s.lenVal Config.hw = 16 ∧ s.dcapVal Config.hw = 16 :=
    keyedAt_values (by decide) (by decide) (by decide) (by decide)
  exact ⟨fun h => by have := h.2.apart; omega, rfl, by omega, by omega⟩

/-- A sector command whose buffer checks fail ends with that error. -/
theorem ends_with {s d l c : Nat} {e : CmdError}
    (h : bufferError Config.hw (keyedAt s d l c) = some e) :
    EndsWith .xtsEnc (keyedAt s d l c) e := by
  rcases sectorCommand_cases Config.hw (xtsEnc Config.hw) (keyedAt s d l c) with
    ⟨h1, _⟩ | ⟨_, e', _, h1, h2⟩ | ⟨_, _, h1, _⟩
  · cases h1
  · rw [h] at h1
    cases h1
    exact ⟨_, congrArg Host.Outcome.next h2, rfl, rfl⟩
  · rw [(bufferError_eq_none _ _).mpr h1] at h
    cases h

/-- LEN = 15. -/
theorem wit_InvalidInputLengthExactly :
    EndsWith .xtsEnc (keyedAt 0x1000 0x2000 15 32) .invalidInputLength := by
  have e : (keyedAt 0x1000 0x2000 15 32).lenVal Config.hw = 15 := addrVal_small (by decide)
  exact ends_with (by simp [bufferError, e])
/-- LEN = 16 and DCAP = 15. -/
theorem wit_BufferTooSmallExactly :
    EndsWith .xtsEnc (keyedAt 0x1000 0x2000 16 15) .bufferTooSmall := by
  have e : (keyedAt 0x1000 0x2000 16 15).lenVal Config.hw = 16 := addrVal_small (by decide)
  have e' : (keyedAt 0x1000 0x2000 16 15).dcapVal Config.hw = 15 := addrVal_small (by decide)
  exact ends_with (by simp [bufferError, e, e'])
/-- No key, for an encryption; a key, for a construction. -/
theorem wit_IllegalStateExactly :
    EndsWith .xtsEnc State.reset .illegalState ∧
    EndsWith .xtsNew (keyedAt 0 0 0 0) .illegalState :=
  ⟨⟨_, rfl, rfl, rfl⟩, _, rfl, rfl, rfl⟩
/-- An overlap of a single byte. -/
theorem wit_IllegalRangeExactly :
    EndsWith .xtsEnc (keyedAt 0x1000 0x100F 16 16) .illegalRange := by
  obtain ⟨e1, e2, e3, e4⟩ := keyedAt_values (s := 0x1000) (d := 0x100F) (l := 16) (c := 16)
    (by decide) (by decide) (by decide) (by decide)
  refine ends_with ?_
  rcases bufferError_cases Config.hw (keyedAt 0x1000 0x100F 16 16) with h | h | h | h
  · omega
  · omega
  · exact h.2.2.2
  · have := h.1.apart
    omega
/-- KLEN = 0, whose half no cipher supports. -/
theorem wit_InvalidKeyLengthExactly : EndsWith .xtsNew State.reset .invalidKeyLength := by
  have h : keyMaterialOk Config.hw State.reset = false := by
    rw [← Bool.not_eq_true, keyMaterialOk_iff]
    exact fun h => h.2.1.1 rfl
  rcases xtsNewOn_cases Config.hw State.reset with ⟨h1, _⟩ | ⟨_, _, h2⟩ | ⟨_, h1, _⟩
  · exact absurd rfl h1
  · exact ⟨_, congrArg Host.Outcome.next h2, rfl, rfl⟩
  · rw [h] at h1
    cases h1

/-- XTS.ENC with no key ends with an error. -/
theorem wit_ErrorsChangeNoArchitecturalState :
    ∃ t, exec .xtsEnc State.reset = .next t ∧ t.err = true ∧
      t.errCode ≠ CmdError.invalidInputLength.code ∧ t.errCode ≠ CmdError.bufferTooSmall.code :=
  ⟨_, rfl, by decide, by decide, by decide⟩

/-- Reading and writing CMD, in both phases. -/
theorem wit_CmdWriteIssues :
    (expecting (.host (.write 0 9)) State.reset).inputs = .host (.write 0 9) :: [] ∧
    (expecting (.host (.write 0 9)) State.reset).phase = .idle ∧
    (expecting (.host (.write 0 9)) (inFlight 1#32)).phase = .busy := ⟨rfl, rfl, rfl⟩

theorem wit_WritesWhileBusyAreDropped :
    (inFlight 1#32).phase = .busy ∧
    (expecting (.host (.write 3 9)) (inFlight 1#32)).inputs = .host (.write 3 9) :: [] ∧
    (expecting (.host (.writeByte 8 0 1#8)) (inFlight 1#32)).inputs =
      .host (.writeByte 8 0 1#8) :: [] := ⟨rfl, rfl, rfl⟩

theorem wit_RegisterWriteReadsBack : State.reset.phase = .idle ∧ 2 ≤ 2 ∧ 7 ≤ 7 := by decide
theorem wit_RegisterWriteReadsBack_step :
    (expecting (.host (.write 2 9)) State.reset).inputs = .host (.write 2 9) :: [] := rfl
theorem wit_ByteWriteSetsOneByte : (loaded 32).phase = .idle ∧ (loaded 32).key.wf = true := by
  decide

theorem wit_ByteWriteSetsOneByte_step :
    (expecting (.host (.writeByte 8 15 9#8)) State.reset).inputs =
      .host (.writeByte 8 15 9#8) :: [] := rfl

theorem wit_PortReadsChangeNothing :
    (∃ r, HostAction.read 9 = .read r) ∧ ∃ r i, HostAction.readByte 8 15 = .readByte r i :=
  ⟨⟨9, rfl⟩, 8, 15, rfl⟩

/-- The bounds of the register numbers and byte indices of its clauses. -/
theorem wit_AbsentRegistersReadZero :
    (1 = 1 ∨ 8 ≤ 1) ∧ (8 = 1 ∨ 8 ≤ 8) ∧ (7 ≠ 8 ∧ 7 ≠ 9) ∧ 10 ≤ 10 ∧ State.reset.phase = .idle ∧
    (0 = 0 ∨ 8 ≤ 0) ∧ 15 < 16 ∧ ¬ (8 = 8 ∧ 16 < 16) ∧ ¬ (9 = 8 ∧ 0 < 16) := by decide

/-- A read of a register in IDLE and in BUSY, and of the last byte of T and one beyond. -/
theorem wit_PortReadsReplyRegisters :
    (expecting (.host (.read 7)) State.reset).inputs = .host (.read 7) :: [] ∧
    (expecting (.host (.read 7)) State.reset).phase = .idle ∧
    (expecting (.host (.read 7)) (inFlight 1#32)).phase = .busy ∧
    (expecting (.host (.readByte 8 15)) State.reset).inputs = .host (.readByte 8 15) :: [] ∧
    ¬ (8 = 8 ∧ 16 < 16) := ⟨rfl, rfl, rfl, rfl, by decide⟩
/-- 95 V120: STATUS reads BUSY = 1 while a command is in flight. -/
theorem test_status_while_busy : hostRead toy 1 (inFlight 1#32) = 1 := by decide

/-- The key is replaced by another and the read of STATUS answers. -/
theorem wit_SecretsNeverReadThroughPort :
    (some (KeyPair.mk [] [])).isSome = (keyedAt 0 0 0 0).slots.isSome ∧
    ∃ t, hostAct Config.hw (.read 1) (keyedAt 0 0 0 0) = .next t := ⟨rfl, _, rfl⟩

/-- The byte of the host's own store is read back by its load. -/
theorem test_store_load :
    hostStore toy 0x2000 [0xab#8] State.reset = .next (withMem State.reset 0x2000 [0xab#8]) ∧
    hostLoad toy 0x2000 1 (withMem State.reset 0x2000 [0xab#8]) =
      .next { withMem State.reset 0x2000 [0xab#8] with
        replies := [.bytes 0x2000 [0xab#8]] } := ⟨rfl, rfl⟩

theorem wit_PortTupleRoundTrip : portTuple (.writeByte 8 15 255#8) = some (1, 8, 15, 255) := by
  decide

theorem wit_EveryCommandCompletes :
    (inFlight 0#32).phase = .busy ∧ (inFlight 0#32).engineNext = true := ⟨rfl, rfl⟩

theorem wit_WaitYieldsIdleStatus :
    (expecting .wait (inFlight 2#32)).phase = .busy ∧
    (expecting .wait (inFlight 2#32)).inputs = .wait :: [] := ⟨rfl, rfl⟩

/-- From IDLE to BUSY by the write of CMD. -/
theorem wit_PhaseTransitions_issue :
    ∃ t, step (expecting (.host (.write 0 4)) State.reset) = .next t ∧
      (expecting (.host (.write 0 4)) State.reset).phase = .idle ∧ t.phase = .busy :=
  ⟨_, rfl, rfl, rfl⟩
/-- From BUSY to IDLE by the engine, and by reset. -/
theorem wit_PhaseTransitions_completion :
    (∃ t, step (inFlight 4#32) = .next t ∧ t.phase = .idle) ∧
    ∃ t, step (expecting .reset (inFlight 4#32)) = .next t ∧ t.phase = .idle :=
  ⟨⟨_, rfl, rfl⟩, _, rfl, rfl⟩

theorem wit_OnlyHostMemoryAccessStops : portInputNext State.reset = true := rfl

/-- Source `[0x1000 .. 0x1010)` and destination `[0x2000 .. 0x2010)` claimed. -/
def claimed : State := { State.reset with claims := [⟨0x1000, 16, 0x2000, 16⟩] }

/-- The last byte of the source and the first of the destination, stored to. -/
theorem wit_BuffersInFlightAreProtected_store :
    (∃ c ∈ claimed.claims, c.src ≤ 0x100F ∧ 0x100F < c.src + c.len) ∧
    (∃ c ∈ claimed.claims, c.dst ≤ 0x2000 ∧ 0x2000 < c.dst + c.dcap) ∧
    0x2000 + [0#8].length ≤ 2 ^ Config.hw.aw :=
  ⟨by decide, by decide, le_trans (by decide) addrSpace_ge⟩
/-- The last byte of the destination, loaded, and the STATUS read that ends the claim. -/
theorem wit_BuffersInFlightAreProtected_load :
    (∃ c ∈ claimed.claims, c.dst ≤ 0x200F ∧ 0x200F < c.dst + c.dcap) ∧
    0x200F + 1 ≤ 2 ^ Config.hw.aw ∧
    (expecting (.host (.read 1)) claimed).phase = .idle ∧ claimed.claims ≠ [] :=
  ⟨by decide, le_trans (by decide) addrSpace_ge, rfl, by decide⟩

/-- Beside a claim: the byte before its destination, stored to, and a byte of its source, loaded. -/
theorem wit_HostStoreAndLoad :
    claimed.mem.wf = true ∧ 0x1FFF + [1#8].length ≤ 2 ^ Config.hw.aw ∧
    (∀ c ∈ claimed.claims, ∀ x, 0x1FFF ≤ x → x < 0x1FFF + [1#8].length →
      ¬ (c.src ≤ x ∧ x < c.src + c.len) ∧ ¬ (c.dst ≤ x ∧ x < c.dst + c.dcap)) ∧
    0x1000 + 1 ≤ 2 ^ Config.hw.aw ∧
    ∀ c ∈ claimed.claims, ∀ x, 0x1000 ≤ x → x < 0x1000 + 1 →
      ¬ (c.dst ≤ x ∧ x < c.dst + c.dcap) := by
  refine ⟨rfl, le_trans (by decide) addrSpace_ge, ?_, le_trans (by decide) addrSpace_ge, ?_⟩ <;>
    simp [claimed] <;> omega
/-- The first address past the end of memory. -/
theorem wit_HostStoreAndLoad_fault :
    2 ^ Config.hw.aw < 2 ^ Config.hw.aw + [1#8].length := by simp

theorem wit_ResetEventClearsCore :
    (expecting .reset (inFlight 2#32)).inputs = .reset :: [] ∧
    (expecting .reset State.reset).phase ≠ .busy := ⟨rfl, by decide⟩

/-- GF.MULA in flight on a T that is not zero has the invariant. -/
theorem wit_EveryStepKeepsInvariant :
    Inv Config.hw { inFlight 4#32 with t := 5#128 } ∧
    ∃ t, step { inFlight 4#32 with t := 5#128 } = .next t := by
  have h : 0 < addrSpace Config.hw := lt_of_lt_of_le (by decide) addrSpace_ge
  refine ⟨⟨rfl, by simp [inFlight, State.reset], rfl, by simp [inFlight, State.reset], h, h, h, h,
    by simp [inFlight, State.reset], fun _ => ⟨rfl, rfl, rfl⟩, by simp [inFlight, State.reset],
    by simp [inFlight, State.reset], by decide, ⟨rfl, rfl, rfl, rfl, rfl⟩, ?_⟩, _, rfl⟩
  intro hb
  revert hb
  decide

theorem wit_RunLineReportsStatus :
    State.reset.phase = .idle ∧
    { State.reset with inputs := runCmd .gfMula }.inputs = runCmd .gfMula ++ [] := ⟨rfl, rfl⟩

/-- One byte fits KEY whatever key lengths the cipher has. -/
theorem wit_LoadKeyFillsKey :
    State.reset.phase = .idle ∧ State.reset.key.wf = true ∧
    { State.reset with inputs := loadKey [7#8] }.inputs = loadKey [7#8] ++ [] ∧
    [7#8].length ≤ keyBytes Config.hw := by
  refine ⟨rfl, rfl, rfl, ?_⟩
  simp only [keyBytes, kmax, Config.hw, Config.keyLens, List.foldr_cons, List.length_singleton]
  omega

end Sys2Proof.Tests
end

section
/-! The XEX step (R121, R141): masking a block function with one tweak on both sides keeps inverses. -/

namespace Sys2Proof.Machine

theorem xex_eq (f : Block → Block) (t b : Block) : xex f t b = f (b ^^^ t) ^^^ t := rfl

/-- The outer XOR of the first step cancels the inner XOR of the second, so that `g` meets the
output of `f` itself. -/
theorem xex_leftInverse {f g : Block → Block} (h : Function.LeftInverse g f) (t : Block) :
    Function.LeftInverse (xex g t) (xex f t) := by
  intro b
  calc xex g t (xex f t b)
      = g (f (b ^^^ t) ^^^ t ^^^ t) ^^^ t := by rw [xex_eq, xex_eq]
    _ = g (f (b ^^^ t)) ^^^ t := by rw [BitVec.xor_assoc, BitVec.xor_self, BitVec.xor_zero]
    _ = b ^^^ t ^^^ t := by rw [h]
    _ = b := by rw [BitVec.xor_assoc, BitVec.xor_self, BitVec.xor_zero]

/-- Settles O20: `BC.inverse` (R9) makes `dec k` and `enc k` left inverses of each other, and the
XEX step keeps a left inverse. -/
theorem xexStepsInvert : Obligations.XexStepsInvert := by
  refine ⟨xex_eq, fun hw k t b hinv hk => ⟨?_, ?_⟩⟩
  · exact xex_leftInverse (fun b => (hinv k b hk).1) t b
  · exact xex_leftInverse (fun b => (hinv k b hk).2) t b

end Sys2Proof.Machine
end

section
/-! SUPPORT. The decoder read backwards, the engine's turn and the host's actions: what each can do, said
once, for the statements about every step. -/

namespace Sys2Proof.Machine

/-! ### The decoder read backwards -/

/-- The opcode map is injective: what decodes to a command is that command's opcode (R76). -/
theorem opcodeInstr_eq_some {op : BitVec 4} {i : Instr} (h : opcodeInstr op = some i) :
    op = i.fields.op := by
  revert op
  cases i <;> decide

/-- Only the word of R76 decodes to a command: reserved bits zero, then that command's opcode. -/
theorem eq_commandWord_of_decode {w : BitVec 32} {i : Instr} (h : decode w = .ok i) :
    w = commandWord i := by
  have hsplit : w.extractLsb' 4 28 ++ w.extractLsb' 0 4 = w :=
    (BitVec.extractLsb'_append_extractLsb'_eq_extractLsb' rfl).trans BitVec.extractLsb'_eq_self
  have hzero : w.extractLsb' 4 28 = 0#28 := by
    by_contra hne
    simp [decode, cmdFields, hne] at h
  have hop : w.extractLsb' 0 4 = i.fields.op := by
    refine opcodeInstr_eq_some ?_
    cases ho : opcodeInstr (w.extractLsb' 0 4) with
    | none => simp [decode, cmdFields, hzero, ho] at h
    | some j => simpa [decode, cmdFields, hzero, ho] using h
  calc w = 0#28 ++ i.fields.op := by rw [← hzero, ← hop, hsplit]
    _ = commandWord i := by cases i <;> rfl

/-! ### The engine's turn -/

/-- The engine's turn acts on the state itself, or on it with the explicit turn used up. -/
theorem atEngineTurn_eq (s : State) : s.atEngineTurn = s ∨ s.atEngineTurn = s.popInput := by
  unfold State.atEngineTurn
  split
  · exact .inr rfl
  · exact .inl rfl

@[simp] theorem atEngineTurn_cmdReg (s : State) : s.atEngineTurn.cmdReg = s.cmdReg := by
  rcases atEngineTurn_eq s with h | h <;> rw [h]
  rfl

@[simp] theorem atEngineTurn_slots (s : State) : s.atEngineTurn.slots = s.slots := by
  rcases atEngineTurn_eq s with h | h <;> rw [h]
  rfl

/-- All `Complete` can do. -/
theorem complete_cases {s t : State} (h : complete s = .next t) :
    (∃ i, decode s.cmdReg = .ok i ∧ t = execState i s) ∨ t = raise .illegalCommand s := by
  cases hd : decode s.cmdReg with
  | ok i =>
    rw [complete_ok hd, exec_eq, Host.Outcome.next.injEq] at h
    exact .inl ⟨i, rfl, h.symm⟩
  | error e =>
    rw [complete_error hd, Host.Outcome.next.injEq] at h
    exact .inr h.symm

/-! ### The host's actions -/

theorem idle_of_not_busy {s : State} (h : ¬ s.busy = true) : s.phase = .idle := by
  rwa [Bool.not_eq_true, busy_eq_false] at h

/-- All `HostWrite` can do. -/
theorem hostWrite_cases (hw : Hw) (r v : Nat) (s : State) :
    hostWrite hw r v s = s ∨
    s.phase = .idle ∧
      ((r = 0 ∧ hostWrite hw r v s = issue hw (BitVec.ofNat 32 v) s) ∨
       hostWrite hw r v s = { s with klen := BitVec.ofNat 32 v } ∨
       hostWrite hw r v s = { s with sector := BitVec.ofNat 64 v } ∨
       hostWrite hw r v s = { s with src := addrReg hw v } ∨
       hostWrite hw r v s = { s with dst := addrReg hw v } ∨
       hostWrite hw r v s = { s with len := addrReg hw v } ∨
       hostWrite hw r v s = { s with dcap := addrReg hw v }) := by
  unfold hostWrite
  split
  · exact .inl rfl
  · have hidle : s.phase = .idle := idle_of_not_busy ‹_›
    split <;> simp [hidle]

/-- All `HostWriteByte` can do. -/
theorem hostWriteByte_cases (hw : Hw) (r i : Nat) (b : Byte) (s : State) :
    hostWriteByte hw r i b s = s ∨
    s.phase = .idle ∧
      (hostWriteByte hw r i b s = s.setT (blockSetByte s.t i b) ∨
       (i < keyBytes hw ∧ hostWriteByte hw r i b s = { s with key := s.key.put i b })) := by
  unfold hostWriteByte
  split
  · exact .inl rfl
  · have hidle : s.phase = .idle := idle_of_not_busy ‹_›
    split
    · exact .inr ⟨hidle, .inl rfl⟩
    · split
      · next h => exact .inr ⟨hidle, .inr ⟨h.2, rfl⟩⟩
      · exact .inl rfl

/-- A store of the host that is not stopped writes its bytes, inside memory. -/
theorem hostStore_next {hw : Hw} {a : Nat} {bytes : Bytes} {s t : State}
    (h : hostStore hw a bytes s = .next t) :
    a + bytes.length ≤ addrSpace hw ∧ t = s.setMem (memWrite s.mem a bytes) := by
  rcases hostStore_cases hw a bytes s with ⟨_, e⟩ | ⟨_, _, e⟩ | ⟨_, _, e⟩ | ⟨hin, e⟩ <;>
    rw [e] at h <;> cases h
  exact ⟨hin, rfl⟩

/-- A load of the host that is not stopped replies the bytes. -/
theorem hostLoad_next {hw : Hw} {a n : Nat} {s t : State} (h : hostLoad hw a n s = .next t) :
    t = { s with replies := s.replies ++ [.bytes a (memRead s.mem a n)] } := by
  rcases hostLoad_cases hw a n s with ⟨_, e⟩ | ⟨_, _, e⟩ | ⟨_, e⟩ <;> rw [e] at h <;> cases h
  rfl

/-- No action of the host reaches the key slots. -/
theorem hostAct_slots {hw : Hw} {a : HostAction} {s t : State} (h : hostAct hw a s = .next t) :
    t.slots = s.slots := by
  cases a with
  | write r v =>
    cases h
    rcases hostWrite_cases hw r v s with e | ⟨_, ⟨_, e⟩ | e | e | e | e | e | e⟩ <;> rw [e]
    rfl
  | writeByte r i b =>
    cases h
    rcases hostWriteByte_cases hw r i b s with e | ⟨_, e | ⟨_, e⟩⟩ <;> rw [e]
    rfl
  | read r => cases h; rfl
  | readByte r i => cases h; rfl
  | mem a bytes => rw [(hostStore_next h).2]; rfl
  | dump a n => rw [hostLoad_next h]

/-- Of the host's actions only the write of CMD moves PHASE, from IDLE to BUSY (R21, R77). -/
theorem hostAct_phase {hw : Hw} {a : HostAction} {s t : State} (h : hostAct hw a s = .next t) :
    t.phase = s.phase ∨ s.phase = .idle ∧ t.phase = .busy ∧ ∃ v, a = .write 0 v := by
  cases a with
  | write r v =>
    cases h
    rcases hostWrite_cases hw r v s with e | ⟨hidle, ⟨rfl, e⟩ | e | e | e | e | e | e⟩
    case inr.inl => rw [e]; exact .inr ⟨hidle, rfl, v, rfl⟩
    all_goals rw [e]; exact .inl rfl
  | writeByte r i b =>
    cases h
    rcases hostWriteByte_cases hw r i b s with e | ⟨_, e | ⟨_, e⟩⟩ <;> rw [e] <;> exact .inl rfl
  | read r => cases h; exact .inl rfl
  | readByte r i => cases h; exact .inl rfl
  | mem a bytes => rw [(hostStore_next h).2]; exact .inl rfl
  | dump a n => rw [hostLoad_next h]; exact .inl rfl

end Sys2Proof.Machine
end

section
/-! The invariant of every run: it holds at reset, each named update of the state keeps it under that
update's own condition, and every step is made of those updates. -/

namespace Sys2Proof.Machine

variable {hw : Hw} {s : State}

/-! ### Bounds of the address-wide registers -/

theorem addrSpace_pos (hw : Hw) : 0 < addrSpace hw := Nat.two_pow_pos _

theorem addrReg_lt (hw : Hw) (v : Nat) : (addrReg hw v).toNat < addrSpace hw := by
  rw [addrReg, BitVec.toNat_ofNat]
  exact (Nat.mod_le _ _).trans_lt (Nat.mod_lt _ (addrSpace_pos hw))

theorem dstAddr_lt (hw : Hw) (s : State) : s.dstAddr hw < addrSpace hw :=
  Nat.mod_lt _ (addrSpace_pos hw)

/-! ### Reset -/

/-- The power-on state is memoryless, idle, unkeyed and free of errors. -/
theorem inv_reset (hw : Hw) : Inv hw State.reset where
  memWf := rfl
  memIn := by simp [State.reset]
  keyWf := rfl
  keyIn := by simp [State.reset]
  srcIn := addrSpace_pos hw
  dstIn := addrSpace_pos hw
  lenIn := addrSpace_pos hw
  dcapIn := addrSpace_pos hw
  slotsOk := by simp [State.reset]
  busyClear := by simp [State.reset]
  errDone := by simp [State.reset]
  errCode := by simp [State.reset]
  codeUsed := by decide
  work := ⟨rfl, rfl, rfl, rfl, rfl⟩
  claimed := by simp [State.buffersInFlight, State.busy, State.reset]

/-- Settles O55: the power-on state has the invariant on every hardware. -/
theorem resetHasInvariant : Obligations.ResetHasInvariant := inv_reset Config.hw

/-! ### Updates that keep the invariant -/

theorem WorkEmpty.of_same {t : State} (h : WorkEmpty s)
    (hsame : (t.w, t.w1, t.cc, t.tail, t.blk) = (s.w, s.w1, s.cc, s.tail, s.blk)) :
    WorkEmpty t := by
  simp only [Prod.mk.injEq] at hsame
  obtain ⟨ew, ew1, ecc, etail, eblk⟩ := hsame
  exact ⟨ew.trans h.w, ew1.trans h.w1, ecc.trans h.cc, etail.trans h.tail, eblk.trans h.blk⟩

/-- In IDLE no buffers are in flight. -/
theorem claimed_of_idle (hidle : s.phase = .idle) :
    s.buffersInFlight = true → s.currentClaim hw ∈ s.claims := by
  simp [State.buffersInFlight, (busy_eq_false s).mpr hidle]

theorem inv_popInput (h : Inv hw s) : Inv hw s.popInput :=
  { h with work := h.work.of_same rfl }

theorem inv_drawn (h : Inv hw s) : Inv hw s.drawn :=
  { h with work := h.work.of_same rfl }

theorem inv_setT (h : Inv hw s) (b : Block) : Inv hw (s.setT b) :=
  { h with work := h.work.of_same rfl }

theorem inv_reply (h : Inv hw s) (r : Reply) : Inv hw (reply r s) :=
  { h with work := h.work.of_same rfl }

theorem inv_setSlots (h : Inv hw s) {slots : Option KeyPair}
    (hslots : ∀ k, slots = some k →
      hw.keyOk k.k1 = true ∧ hw.keyOk k.k2 = true ∧ k.k1.length = k.k2.length) :
    Inv hw (s.setSlots slots) :=
  { h with slotsOk := hslots, work := h.work.of_same rfl }

theorem inv_setMem_memWrite (h : Inv hw s) {a : Nat} {v : Bytes}
    (hin : a + v.length ≤ addrSpace hw) : Inv hw (s.setMem (memWrite s.mem a v)) :=
  { h with
    memWf := wf_memWrite a v h.memWf
    memIn := memWrite_below a v h.memIn hin
    work := h.work.of_same rfl }

/-- What is spoiled ends at `min(DST + DCAP, 2^AW)`, so it lies inside memory. -/
theorem inv_spoilDst (h : Inv hw s) : Inv hw (spoilDst hw s) := by
  refine inv_drawn (inv_setMem_memWrite h ?_)
  have hdst := dstAddr_lt hw s
  rw [freeBytes_length, State.dstEnd]
  omega

/-! ### The end of a command -/

theorem code_ne_zero (e : CmdError) : e.code ≠ 0#4 := by cases e <;> decide

theorem code_lt_seven (e : CmdError) : e.code.toNat < 7 := by cases e <;> decide

/-- Ending a command writes a legal STATUS, empties the working registers and goes to IDLE. -/
theorem inv_finish (h : Inv hw s) (e : Option CmdError) : Inv hw (finish e s) :=
  { h with
    busyClear := by simp
    errDone := by simp
    errCode := by cases e <;> simp [code_ne_zero]
    codeUsed := by cases e <;> simp [code_lt_seven]
    work := workEmpty_finish e s
    claimed := claimed_of_idle rfl }

theorem inv_endOk (h : Inv hw s) : Inv hw (endOk s) := inv_finish h none

theorem inv_raise (h : Inv hw s) (e : CmdError) : Inv hw (raise e s) := inv_finish h (some e)

/-! ### The commands -/

theorem xtsEnc_length (hw : Hw) (k : KeyPair) (sector : BitVec 64) {src : Bytes}
    (h : 16 ≤ src.length) : (xtsEnc hw k sector src).length = src.length :=
  xtsSector_length _ (fun w last _ ht => stealEnc_length _ w last ht) _ h

theorem xtsDec_length (hw : Hw) (k : KeyPair) (sector : BitVec 64) {src : Bytes}
    (h : 16 ≤ src.length) : (xtsDec hw k sector src).length = src.length :=
  xtsSector_length _ (fun w last _ ht => stealDec_length _ w last ht) _ h

/-- XTS.NEW fills the slots only with halves the cipher accepts, which have one length (R156). -/
theorem inv_xtsNewOn (h : Inv hw s) : Inv hw (xtsNewOn hw s) := by
  rcases xtsNewOn_cases hw s with ⟨_, e⟩ | ⟨_, _, e⟩ | ⟨_, hok, e⟩ <;> rw [e]
  · exact inv_raise h _
  · exact inv_raise h _
  · obtain ⟨_, _, hk1, hk2⟩ := (keyMaterialOk_iff hw s).mp hok
    refine inv_endOk (inv_setSlots h ?_)
    rintro _ ⟨⟩
    exact ⟨hk1, hk2, by simp [State.keyHalves]⟩

theorem inv_twInitOn (h : Inv hw s) : Inv hw (twInitOn hw s) := by
  rcases twInitOn_cases hw s with ⟨_, e⟩ | ⟨k, _, e⟩ <;> rw [e]
  · exact inv_raise h _
  · exact inv_endOk (inv_setT h _)

/-- The result and the slack of a sector command lie in `[DST .. DST+DCAP)`, which the buffer checks
have put inside memory. -/
theorem inv_sectorCommand {xts : KeyPair → BitVec 64 → Bytes → Bytes}
    (hlen : ∀ k sector src, 16 ≤ src.length → (xts k sector src).length = src.length)
    (h : Inv hw s) : Inv hw (sectorCommand hw xts s) := by
  rcases sectorCommand_cases hw xts s with ⟨_, e⟩ | ⟨k, err, _, _, e⟩ | ⟨k, _, hready, e⟩ <;> rw [e]
  · exact inv_raise h _
  · refine inv_raise ?_ err
    split
    · exact inv_spoilDst h
    · exact h
  · obtain ⟨h16, hcap, _, htop, _⟩ := hready
    have hout : (xts k s.sector (memRead s.mem (s.srcAddr hw) (s.lenVal hw))).length =
        s.lenVal hw := by
      rw [hlen _ _ _ (by rwa [memRead_length]), memRead_length]
    have hresult := inv_setMem_memWrite h (a := s.dstAddr hw)
      (v := xts k s.sector (memRead s.mem (s.srcAddr hw) (s.lenVal hw))) (by omega)
    refine inv_endOk (inv_drawn (inv_setMem_memWrite hresult ?_))
    rw [freeBytes_length]
    omega

theorem inv_execState (i : Instr) (h : Inv Config.hw s) : Inv Config.hw (execState i s) := by
  cases i with
  | xtsNew => exact inv_xtsNewOn h
  | xtsEnc => exact inv_sectorCommand (fun k sector _ => xtsEnc_length Config.hw k sector) h
  | xtsDec => exact inv_sectorCommand (fun k sector _ => xtsDec_length Config.hw k sector) h
  | gfMula => exact inv_endOk (inv_setT h _)
  | twInit => exact inv_twInitOn h
  | twAdv => exact inv_endOk (inv_setT h _)
  | xtsDrop => exact inv_endOk (inv_setSlots h (by simp))

theorem inv_complete {t : State} (h : Inv Config.hw s) (ht : complete s = .next t) :
    Inv Config.hw t := by
  rcases complete_cases ht with ⟨i, _, rfl⟩ | rfl
  · exact inv_execState i h
  · exact inv_raise h _

/-! ### The host's actions and reset -/

/-- Issue claims the buffers of the command it puts in flight (log 11). -/
theorem inv_issue (h : Inv hw s) (c : BitVec 32) : Inv hw (issue hw c s) :=
  { h with
    busyClear := fun _ => ⟨rfl, rfl, rfl⟩
    errDone := by simp
    errCode := by simp
    codeUsed := by simp
    work := h.work.of_same rfl
    claimed := fun hb => by
      have huses : usesBuffers c = true := (Bool.and_eq_true_iff.mp hb).2
      rw [issue_claims, if_pos huses]
      exact List.mem_cons_self }

theorem inv_hostWrite (h : Inv hw s) (r v : Nat) : Inv hw (hostWrite hw r v s) := by
  rcases hostWrite_cases hw r v s with e | ⟨hidle, ⟨_, e⟩ | e | e | e | e | e | e⟩ <;> rw [e]
  · exact h
  · exact inv_issue h _
  · exact { h with work := h.work.of_same rfl }
  · exact { h with work := h.work.of_same rfl }
  · exact { h with
      srcIn := addrReg_lt hw v, work := h.work.of_same rfl, claimed := claimed_of_idle hidle }
  · exact { h with
      dstIn := addrReg_lt hw v, work := h.work.of_same rfl, claimed := claimed_of_idle hidle }
  · exact { h with
      lenIn := addrReg_lt hw v, work := h.work.of_same rfl, claimed := claimed_of_idle hidle }
  · exact { h with
      dcapIn := addrReg_lt hw v, work := h.work.of_same rfl, claimed := claimed_of_idle hidle }

theorem inv_hostWriteByte (h : Inv hw s) (r i : Nat) (b : Byte) :
    Inv hw (hostWriteByte hw r i b s) := by
  rcases hostWriteByte_cases hw r i b s with e | ⟨_, e | ⟨hi, e⟩⟩ <;> rw [e]
  · exact h
  · exact inv_setT h _
  · exact { h with
      keyWf := wf_put i b h.keyWf
      keyIn := fun c hc => (mem_put hc).elim (· ▸ hi) (h.keyIn c)
      work := h.work.of_same rfl }

/-- Claims are dropped only in IDLE, where no buffers are in flight. -/
theorem inv_dropClaims (h : Inv hw s) (r : Nat) : Inv hw (dropClaims r s) :=
  { h with
    work := h.work.of_same rfl
    claimed := fun hb => by
      have hbusy : s.busy = true := (Bool.and_eq_true_iff.mp hb).1
      rw [dropClaims_claims, if_neg (by simp [hbusy])]
      exact h.claimed hb }

theorem inv_hostAct {a : HostAction} {t : State} (h : Inv hw s) (ht : hostAct hw a s = .next t) :
    Inv hw t := by
  cases a with
  | write r v => cases ht; exact inv_hostWrite h r v
  | writeByte r i b => cases ht; exact inv_hostWriteByte h r i b
  | read r => cases ht; exact inv_dropClaims (inv_reply h _) r
  | readByte r i => cases ht; exact inv_reply h _
  | mem a bytes =>
    obtain ⟨hin, rfl⟩ := hostStore_next ht
    exact inv_setMem_memWrite h hin
  | dump a n =>
    rw [hostLoad_next ht]
    exact { h with work := h.work.of_same rfl }

/-- The free values reset draws fit the widths of their registers. -/
theorem inv_freeRegisters (h : Inv hw s) (hidle : s.phase = .idle) : Inv hw (freeRegisters hw s) :=
  { h with
    keyWf := wf_memWrite 0 _ rfl
    keyIn := memWrite_below 0 _ (by simp) (by simp)
    srcIn := addrReg_lt hw _
    dstIn := addrReg_lt hw _
    lenIn := addrReg_lt hw _
    dcapIn := addrReg_lt hw _
    work := h.work.of_same rfl
    claimed := claimed_of_idle hidle }

theorem inv_resetEvent (h : Inv hw s) : Inv hw (resetEvent hw s) := by
  have hkept : Inv hw (if s.buffersInFlight then spoilDst hw s else s) := by
    split
    · exact inv_spoilDst h
    · exact h
  refine inv_freeRegisters ?_ rfl
  exact { inv_reset hw with
    memWf := hkept.memWf
    memIn := hkept.memIn
    work := (inv_reset hw).work.of_same rfl }

/-- Settles O56: a step is the engine's turn, a host action, a reset, or nothing but a used-up input,
and each keeps the invariant. -/
theorem everyStepKeepsInvariant : Obligations.EveryStepKeepsInvariant := by
  intro s t h hstep
  rcases step_cases hstep with ⟨_, _, ht⟩ | ⟨_, _, rfl⟩ | ⟨_, _, rfl⟩ | ⟨_, _, ht⟩ |
    ⟨a, _, _, ht⟩ | ⟨_, _, rfl⟩
  · refine inv_complete ?_ ht
    rcases atEngineTurn_eq s with e | e <;> rw [e]
    · exact h
    · exact inv_popInput h
  · exact h
  · exact inv_popInput h
  · exact inv_hostAct (inv_popInput h) ht
  · exact inv_hostAct (inv_popInput h) ht
  · exact inv_resetEvent (inv_popInput h)

end Sys2Proof.Machine
end

section
/-! The STATUS word field by field (spec/10_state.md R36), and key slots and PHASE over every step
(R21, R33). -/

namespace Sys2Proof.Machine

/-! ### The STATUS word -/

/-- Appending a flag below a word: bit 0 is the flag and the word's bits move up by one. -/
theorem getLsbD_append_ofBool {n : Nat} (x : BitVec n) (b : Bool) (k : Nat) :
    (x ++ BitVec.ofBool b).getLsbD k = if k = 0 then b else x.getLsbD (k - 1) := by
  rw [BitVec.getLsbD_append]
  cases k <;> simp

/-- Bit by bit: BUSY, DONE, ERR, KEYED, then the four bits of ERRCODE, above which nothing is set. -/
theorem status_getLsbD (s : State) (k : Nat) :
    s.status.getLsbD k =
      if k = 0 then s.busy else if k = 1 then s.done else if k = 2 then s.err
      else if k = 3 then s.keyed else s.errCode.getLsbD (k - 4) := by
  have hword : s.status.getLsbD k =
      BitVec.getLsbD (w := 24 + 4 + 1 + 1 + 1 + 1) (0#24 ++ s.errCode ++ BitVec.ofBool s.keyed ++
        BitVec.ofBool s.err ++ BitVec.ofBool s.done ++ BitVec.ofBool s.busy) k := rfl
  rw [hword]
  iterate 4 rw [getLsbD_append_ofBool]
  rw [BitVec.getLsbD_append]
  rcases k with _ | _ | _ | _ | k <;> simp
  exact BitVec.lt_of_getLsbD

/-- Bit 0 of STATUS is PHASE (R21). -/
theorem status_busy_iff (s : State) : s.status.getLsbD 0 = true ↔ s.phase = .busy := by
  rw [status_getLsbD, if_pos rfl, busy_eq_true]

/-- Settles O38: each field is read off `status_getLsbD`. -/
theorem statusWordFields : Obligations.StatusWordFields := by
  intro s
  refine ⟨status_busy_iff s, status_getLsbD s 1, status_getLsbD s 2, ?_, ?_, ?_⟩
  · rw [status_getLsbD]
    simp [State.keyed, Option.isSome_iff_ne_none]
  · ext k hk
    rw [BitVec.getElem_extractLsb', status_getLsbD, if_neg (by omega), if_neg (by omega),
      if_neg (by omega), if_neg (by omega), Nat.add_sub_cancel_left, BitVec.getLsbD_eq_getElem hk]
  · ext k hk
    rw [BitVec.getElem_extractLsb', status_getLsbD, if_neg (by omega), if_neg (by omega),
      if_neg (by omega), if_neg (by omega), BitVec.getLsbD_of_ge _ _ (by omega), BitVec.getElem_zero]

theorem status_toNat (s : State) :
    s.status.toNat = s.busy.toNat + 2 * s.done.toNat + 4 * s.err.toNat + 8 * s.keyed.toNat +
      16 * s.errCode.toNat := by
  have hword : ∀ (c : BitVec 4) (keyed err done busy : Bool),
      (0#24 ++ c ++ BitVec.ofBool keyed ++ BitVec.ofBool err ++ BitVec.ofBool done ++
        BitVec.ofBool busy).toNat =
      busy.toNat + 2 * done.toNat + 4 * err.toNat + 8 * keyed.toNat + 16 * c.toNat := by decide
  exact hword _ _ _ _ _

/-! ### The key slots -/

/-- Of the commands only XTS.NEW on empty slots and XTS.DROP change the slots (R158, R159). -/
theorem execState_slots (i : Instr) (s : State) :
    (execState i s).slots = s.slots ∨ (i = .xtsNew ∧ s.slots = none) ∨
    (i = .xtsDrop ∧ (execState i s).slots = none) := by
  have hsector : ∀ xts, (sectorCommand Config.hw xts s).slots = s.slots := by
    intro xts
    rcases sectorCommand_cases Config.hw xts s with ⟨_, e⟩ | ⟨_, err, _, _, e⟩ | ⟨_, _, _, e⟩ <;>
      rw [e]
    · rfl
    · rw [raise_slots]
      split <;> rfl
    · rfl
  cases i with
  | xtsNew =>
    rcases xtsNewOn_cases Config.hw s with ⟨_, e⟩ | ⟨hnone, _, _⟩ | ⟨hnone, _, _⟩
    · rw [execState, e]; exact .inl rfl
    · exact .inr (.inl ⟨rfl, hnone⟩)
    · exact .inr (.inl ⟨rfl, hnone⟩)
  | xtsEnc => exact .inl (hsector _)
  | xtsDec => exact .inl (hsector _)
  | gfMula => exact .inl rfl
  | twInit =>
    rcases twInitOn_cases Config.hw s with ⟨_, e⟩ | ⟨_, _, e⟩ <;> rw [execState, e] <;>
      exact .inl rfl
  | twAdv => exact .inl rfl
  | xtsDrop => exact .inr (.inr ⟨rfl, rfl⟩)

/-- Settles O19: the host's actions never reach the slots, so a step that changes them is the engine's
turn with XTS.NEW or XTS.DROP in CMDREG, or reset. -/
theorem keySlotsChangeOnlyByNewDropReset : Obligations.KeySlotsChangeOnlyByNewDropReset := by
  intro s t hstep hne
  rcases step_cases hstep with ⟨hbusy, hengine, ht⟩ | ⟨_, _, rfl⟩ | ⟨_, _, rfl⟩ | ⟨_, _, ht⟩ |
    ⟨a, _, _, ht⟩ | ⟨rest, hin, rfl⟩
  · rcases complete_cases ht with ⟨i, hd, rfl⟩ | rfl
    · rw [atEngineTurn_cmdReg] at hd
      rcases execState_slots i s.atEngineTurn with e | ⟨rfl, hnone⟩ | ⟨rfl, hnone⟩
      · exact absurd (e.trans (atEngineTurn_slots s)) hne
      · rw [atEngineTurn_slots] at hnone
        exact .inl ⟨hbusy, hengine, eq_commandWord_of_decode hd, hnone⟩
      · exact .inr (.inl ⟨hbusy, hengine, eq_commandWord_of_decode hd, hnone⟩)
    · exact absurd (atEngineTurn_slots s) hne
  · exact absurd rfl hne
  · exact absurd rfl hne
  · exact absurd (hostAct_slots ht) hne
  · exact absurd (hostAct_slots ht) hne
  · exact .inr (.inr ⟨⟨rest, hin⟩, rfl⟩)

/-! ### PHASE -/

/-- Settles O50: outside the engine's turn and reset PHASE moves only as the host's action moves it,
which is the write of CMD. -/
theorem phaseTransitions : Obligations.PhaseTransitions := by
  refine ⟨status_busy_iff, fun s t hstep => ⟨fun hidle hbusy => ?_, fun hbusy hidle => ?_⟩⟩
  · rcases step_cases hstep with ⟨hb, _, _⟩ | ⟨_, _, rfl⟩ | ⟨_, _, rfl⟩ | ⟨_, _, ht⟩ |
      ⟨a, rest, hin, ht⟩ | ⟨_, _, rfl⟩
    · simp [hidle] at hb
    · simp [hidle] at hbusy
    · simp [hidle] at hbusy
    · rcases hostAct_phase ht with e | ⟨_, _, v, hv⟩
      · simp [e, hidle] at hbusy
      · cases hv
    · rcases hostAct_phase ht with e | ⟨_, _, v, rfl⟩
      · simp [e, hidle] at hbusy
      · exact ⟨v, rest, hin⟩
    · cases hbusy
  · rcases step_cases hstep with ⟨_, hengine, _⟩ | ⟨hi, _, _⟩ | ⟨hi, _, _⟩ | ⟨hi, _, _⟩ |
      ⟨a, _, _, ht⟩ | ⟨rest, hin, _⟩
    · exact .inl hengine
    · simp [hi] at hbusy
    · simp [hi] at hbusy
    · simp [hi] at hbusy
    · rcases hostAct_phase ht with e | ⟨hi, _, _⟩
      · simp [e, hbusy] at hidle
      · simp [hbusy] at hi
    · exact .inr ⟨rest, hin⟩

/-! ### STATUS after a command -/

/-- STATUS after a command, whose completion has set DONE and left BUSY. -/
theorem status_toNat_of_ended {t : State} (hphase : t.phase = .idle) (hdone : t.done = true) :
    t.status.toNat = 2 + (if t.err then 4 else 0) + (if t.keyed then 8 else 0) +
      16 * t.errCode.toNat := by
  rw [status_toNat, (busy_eq_false t).mpr hphase, hdone]
  cases t.err <;> cases t.keyed <;> simp

/-- Which command raises an error, and in which operating state (the table of R192). Only an illegal
word, which is no command, raises IllegalCommand. -/
def CmdError.raisedBy (i : Instr) (keyed : Bool) : CmdError → Prop
  | .invalidKeyLength => i = .xtsNew ∧ keyed = false
  | .illegalState =>
    ((isSectorCommand i ∨ i = .twInit) ∧ keyed = false) ∨ (i = .xtsNew ∧ keyed = true)
  | .invalidInputLength | .bufferTooSmall | .illegalRange => isSectorCommand i ∧ keyed = true
  | .illegalCommand => False

/-- A command ended ok, or with an error its row of R192 gives it. -/
def EndedByTable (i : Instr) (t : State) : Prop :=
  EndedOk t ∨ ∃ e : CmdError, EndedWith e t ∧ e.raisedBy i t.keyed

theorem endedByTable_endOk (i : Instr) (s : State) : EndedByTable i (endOk s) :=
  .inl (endedOk_endOk s)

theorem endedByTable_raise {i : Instr} {s : State} {e : CmdError} (h : e.raisedBy i s.keyed) :
    EndedByTable i (raise e s) :=
  .inr ⟨e, endedWith_raise e s, h⟩

theorem keyed_of_slots_none {s : State} (h : s.slots = none) : s.keyed = false := by
  rw [State.keyed, h, Option.isSome_none]

/-- The buffer checks raise only what their rows allow. -/
theorem bufferError_raisedBy {hw : Hw} {s : State} {e : CmdError} {i : Instr}
    (hi : isSectorCommand i) (h : bufferError hw s = some e) : e.raisedBy i true := by
  rcases bufferError_cases hw s with ⟨_, he⟩ | ⟨_, _, he⟩ | ⟨_, _, _, he⟩ | ⟨_, he⟩ <;>
    rw [he] at h <;> cases h <;> exact ⟨hi, rfl⟩

theorem endedByTable_sectorCommand (hw : Hw) (xts : KeyPair → BitVec 64 → Bytes → Bytes) (s : State)
    {i : Instr} (hi : isSectorCommand i) : EndedByTable i (sectorCommand hw xts s) := by
  rcases sectorCommand_cases hw xts s with ⟨hnone, e⟩ | ⟨k, err, hk, herr, e⟩ | ⟨_, _, _, e⟩ <;>
    rw [e]
  · exact endedByTable_raise (.inl ⟨.inl hi, keyed_of_slots_none hnone⟩)
  · have hkeyed : (if err.spoilsDst then spoilDst hw s else s).keyed = true := by
      split <;> exact (keyed_eq_true _).mpr ⟨k, hk⟩
    exact endedByTable_raise (by rw [hkeyed]; exact bufferError_raisedBy hi herr)
  · exact endedByTable_endOk i _

theorem endedByTable_execState (i : Instr) (s : State) : EndedByTable i (execState i s) := by
  cases i with
  | xtsNew =>
    rcases xtsNewOn_cases Config.hw s with ⟨hk, e⟩ | ⟨hnone, _, e⟩ | ⟨_, _, e⟩ <;> rw [execState, e]
    · exact endedByTable_raise (.inr ⟨rfl, Option.isSome_iff_ne_none.mpr hk⟩)
    · exact endedByTable_raise ⟨rfl, keyed_of_slots_none hnone⟩
    · exact endedByTable_endOk _ _
  | xtsEnc => exact endedByTable_sectorCommand _ _ s (.inl rfl)
  | xtsDec => exact endedByTable_sectorCommand _ _ s (.inr rfl)
  | gfMula => exact endedByTable_endOk _ _
  | twInit =>
    rcases twInitOn_cases Config.hw s with ⟨hnone, e⟩ | ⟨_, _, e⟩ <;> rw [execState, e]
    · exact endedByTable_raise (.inl ⟨.inr rfl, keyed_of_slots_none hnone⟩)
    · exact endedByTable_endOk _ _
  | twAdv => exact endedByTable_endOk _ _
  | xtsDrop => exact endedByTable_endOk _ _

/-- Settles O39: every command ends by the table, and the table's row of each error is one
alternative of the statement. -/
theorem statusWordAfterCommand : Obligations.StatusWordAfterCommand := by
  intro i s
  refine ⟨execState i s, exec_eq i s, ?_⟩
  rcases endedByTable_execState i s with ⟨hphase, hdone, herr, hcode, _⟩ |
    ⟨e, ⟨hphase, hdone, herr, hcode, _⟩, hrow⟩
  · exact ⟨status_toNat_of_ended hphase hdone, .inl ⟨herr, hcode⟩⟩
  · refine ⟨status_toNat_of_ended hphase hdone, .inr ?_⟩
    rw [herr, hcode]
    cases e with
    | invalidKeyLength => exact .inl ⟨rfl, rfl, hrow⟩
    | invalidInputLength => exact .inr (.inl ⟨rfl, rfl, hrow⟩)
    | bufferTooSmall => exact .inr (.inr (.inl ⟨rfl, rfl, hrow⟩))
    | illegalState =>
      rcases hrow with hrow | hrow
      · exact .inr (.inr (.inr (.inl ⟨rfl, rfl, hrow⟩)))
      · exact .inr (.inr (.inr (.inr (.inl ⟨rfl, rfl, hrow⟩))))
    | illegalRange => exact .inr (.inr (.inr (.inr (.inr ⟨rfl, rfl, hrow⟩))))
    | illegalCommand => exact hrow.elim

end Sys2Proof.Machine
end

section
/-! The host's own memory accesses (spec/20_memory.md R54, spec/30_encoding.md R84), the registers the
port does not have (R50 to R53), and the values at reset (spec/10_state.md R41). -/

namespace Sys2Proof.Machine

/-! ### The host's own store and load -/

/-- What one address reads after `MemWrite`. -/
theorem byteAt_memWrite_eq {m : Memory} (a : Nat) (v : Bytes) (x : Nat) (hm : m.wf = true) :
    (memWrite m a v).byteAt x = if h : a ≤ x ∧ x < a + v.length then v[x - a] else m.byteAt x := by
  split
  · next h =>
    have hread := byteAt_memWrite a v (x - a) (by omega) hm
    rwa [Nat.add_sub_cancel' h.1] at hread
  · exact byteAt_memWrite_other m a v x (by omega)

/-- The store runs when it lies in memory and no claimed buffer shares an address with it. -/
theorem hostStore_eq_next {hw : Hw} {a : Nat} {bytes : Bytes} {s : State}
    (hin : a + bytes.length ≤ addrSpace hw)
    (hfree : ∀ c ∈ s.claims, ∀ x, a ≤ x → x < a + bytes.length →
      ¬ (c.src ≤ x ∧ x < c.src + c.len) ∧ ¬ (c.dst ≤ x ∧ x < c.dst + c.dcap)) :
    hostStore hw a bytes s = .next (s.setMem (memWrite s.mem a bytes)) := by
  rcases hostStore_cases hw a bytes s with ⟨h, _⟩ | ⟨_, ⟨c, hc, hmeet⟩, _⟩ |
    ⟨_, ⟨c, hc, hmeet⟩, _⟩ | ⟨_, e⟩
  · omega
  · obtain ⟨x, ⟨hx, hx'⟩, hsrc⟩ := (rangesMeet_eq_true _ _ _ _).mp hmeet
    exact absurd hsrc (hfree c hc x hx hx').1
  · obtain ⟨x, ⟨hx, hx'⟩, hdst⟩ := (rangesMeet_eq_true _ _ _ _).mp hmeet
    exact absurd hdst (hfree c hc x hx hx').2
  · exact e

/-- The load runs when it lies in memory and no claimed destination shares an address with it. -/
theorem hostLoad_eq_next {hw : Hw} {a n : Nat} {s : State} (hin : a + n ≤ addrSpace hw)
    (hfree : ∀ c ∈ s.claims, ∀ x, a ≤ x → x < a + n → ¬ (c.dst ≤ x ∧ x < c.dst + c.dcap)) :
    hostLoad hw a n s = .next { s with replies := s.replies ++ [.bytes a (memRead s.mem a n)] } := by
  rcases hostLoad_cases hw a n s with ⟨h, _⟩ | ⟨_, ⟨c, hc, hmeet⟩, _⟩ | ⟨_, e⟩
  · omega
  · obtain ⟨x, ⟨hx, hx'⟩, hdst⟩ := (rangesMeet_eq_true _ _ _ _).mp hmeet
    exact absurd hdst (hfree c hc x hx hx')
  · exact e

/-- Settles O60: past `2^AW` the first check faults; inside memory only a shared address with a claim
stops the access, and `MemWrite` and `MemRead` give its bytes. -/
theorem hostStoreAndLoad : Obligations.HostStoreAndLoad := by
  constructor
  · intro s a bytes rest hin
    rw [step_host hin]
    refine ⟨fun hpast => if_pos hpast, fun hinside hwf hfree => ?_⟩
    exact ⟨_, hostStore_eq_next hinside hfree, rfl, fun x => byteAt_memWrite_eq a bytes x hwf⟩
  · intro s a n rest hin
    rw [step_host hin]
    refine ⟨fun hpast => if_pos hpast, fun hinside hfree => ?_⟩
    exact ⟨memRead s.mem a n, hostLoad_eq_next hinside hfree, memRead_length _ _ _,
      fun i h => memRead_getElem _ _ _ _ h⟩

/-! ### What the port does not have -/

/-- STATUS, T, KEY and the numbers that name no register take no `HostWrite` (R50). -/
theorem hostWrite_readOnly (hw : Hw) {r : Nat} (v : Nat) (s : State) (hr : r = 1 ∨ 8 ≤ r) :
    hostWrite hw r v s = s := by
  rcases hr with rfl | hr
  · exact ite_self s
  · obtain ⟨n, rfl⟩ := Nat.exists_eq_add_of_le' hr
    exact ite_self s

theorem regWidth_absent (hw : Hw) {r : Nat} (hr : 10 ≤ r) : regWidth hw r = 0 := by
  obtain ⟨n, rfl⟩ := Nat.exists_eq_add_of_le' hr
  rfl

/-- CMD, T, KEY and the numbers that name no register have no value to read (R52). -/
theorem regValue_absent (hw : Hw) {r : Nat} (s : State) (hr : r = 0 ∨ 8 ≤ r) :
    regValue hw r s = 0 := by
  rcases hr with rfl | hr
  · rfl
  · obtain ⟨n, rfl⟩ := Nat.exists_eq_add_of_le' hr
    rfl

/-- Settles O45: an absent register takes no write, has no value, and has width 0 in BUSY. -/
theorem absentRegistersReadZero : Obligations.AbsentRegistersReadZero := by
  intro s r i v b
  refine ⟨hostWrite_readOnly Config.hw v s, fun h8 h9 => ?_, fun hr => ?_, fun hidle hr => ?_,
    fun hidle hi => ?_, fun hr => if_neg hr⟩
  · simp [hostWriteByte, h8, h9]
  · have hne : r ≠ 1 := by omega
    have hvalue := regValue_absent Config.hw s (.inr (le_trans (by decide) hr))
    simp [hostRead, hne, regWidth_absent _ hr, hvalue, Nat.mod_one]
  · have hne : r ≠ 1 := by omega
    simp [hostRead, hne, hidle, regValue_absent _ s hr]
  · simp [hostReadByte, hi, hidle]

/-! ### Reset -/

/-- Settles O53: the working registers are empty by the invariant, the rest is read off the state. -/
theorem resetValues : Obligations.ResetValues :=
  ⟨rfl, rfl, rfl, rfl, rfl, (inv_reset Config.hw).work⟩

end Sys2Proof.Machine
end

section
/-! What a command leaves alone (spec/20_memory.md R63, spec/30_encoding.md R80, spec/60_exceptions.md
R195): every command is its own changes followed by the common end `finish`. -/

namespace Sys2Proof.Machine

/-- What a command may have changed in `u` before its end, having started in `s`: a sector command
bytes of the declared destination alone, every other command T and the key slots alone. -/
structure CommandChanges (hw : Hw) (i : Instr) (s u : State) : Prop where
  operands : SameOperands s u
  outside : SameMemoryOutside (s.dstAddr hw) (s.dstEnd hw) s u
  memory : ¬ isSectorCommand i → SameMemory s u
  tweakAndSlots : isSectorCommand i → u.t = s.t ∧ u.slots = s.slots

theorem commandChanges_refl (hw : Hw) (i : Instr) (s : State) : CommandChanges hw i s s :=
  ⟨sameOperands_refl s, fun _ _ => rfl, fun _ _ => rfl, fun _ => ⟨rfl, rfl⟩⟩

theorem commandChanges_setT (hw : Hw) {i : Instr} (hi : ¬ isSectorCommand i) (s : State) (b : Block) :
    CommandChanges hw i s (s.setT b) :=
  ⟨⟨rfl, rfl, rfl, rfl, rfl, rfl, rfl, rfl, rfl, rfl, rfl⟩, fun _ _ => rfl, fun _ _ => rfl,
    fun h => absurd h hi⟩

theorem commandChanges_setSlots (hw : Hw) {i : Instr} (hi : ¬ isSectorCommand i) (s : State)
    (k : Option KeyPair) : CommandChanges hw i s (s.setSlots k) :=
  ⟨⟨rfl, rfl, rfl, rfl, rfl, rfl, rfl, rfl, rfl, rfl, rfl⟩, fun _ _ => rfl, fun _ _ => rfl,
    fun h => absurd h hi⟩

theorem commandChanges_spoilDst (hw : Hw) {i : Instr} (hi : isSectorCommand i) (s : State) :
    CommandChanges hw i s (spoilDst hw s) :=
  ⟨sameOperands_spoilDst hw s, sameMemoryOutside_spoilDst hw s, fun h => absurd hi h,
    fun _ => ⟨rfl, rfl⟩⟩

/-- The buffer checks have put the destination inside memory, so its end is `DST + DCAP` itself. -/
theorem commandChanges_sectorMem {hw : Hw} {i : Instr} (hi : isSectorCommand i) {s : State}
    (hready : SectorReady hw s) {xts : Bytes → Bytes}
    (hlen : ∀ src : Bytes, 16 ≤ src.length → (xts src).length = src.length) :
    CommandChanges hw i s (s.setMem (sectorMem hw xts s)).drawn where
  operands := ⟨rfl, rfl, rfl, rfl, rfl, rfl, rfl, rfl, rfl, rfl, rfl⟩
  outside := by
    obtain ⟨h16, hcap, _, htop, _⟩ := hready
    have hend : s.dstEnd hw = s.dstAddr hw + s.dcapVal hw := min_eq_left htop
    rw [hend]
    exact fun a => byteAt_sectorMem_outside hw xts hcap
      fun src hsrc => (hlen src (hsrc ▸ h16)).trans hsrc
  memory := fun h => absurd hi h
  tweakAndSlots := fun _ => ⟨rfl, rfl⟩

/-- A sector command raises on its own state or a spoiled one, or ends ok with the sector written. -/
theorem sectorCommand_eq_finish {hw : Hw} {i : Instr} (hi : isSectorCommand i)
    {xts : KeyPair → BitVec 64 → Bytes → Bytes}
    (hlen : ∀ k sector src, 16 ≤ src.length → (xts k sector src).length = src.length) (s : State) :
    ∃ e u, sectorCommand hw xts s = finish e u ∧ CommandChanges hw i s u := by
  rcases sectorCommand_cases hw xts s with ⟨_, h⟩ | ⟨_, e, _, _, h⟩ | ⟨k, _, hready, h⟩
  · exact ⟨_, _, h, commandChanges_refl hw i s⟩
  · refine ⟨_, _, h, ?_⟩
    split
    · exact commandChanges_spoilDst hw hi s
    · exact commandChanges_refl hw i s
  · exact ⟨_, _, h, commandChanges_sectorMem hi hready (hlen k s.sector)⟩

/-- Every command ends in `finish`, on a state with no changes but its own. -/
theorem execState_eq_finish (i : Instr) (s : State) :
    ∃ e u, execState i s = finish e u ∧ CommandChanges Config.hw i s u := by
  cases i with
  | xtsNew =>
    rcases xtsNewOn_cases Config.hw s with ⟨_, h⟩ | ⟨_, _, h⟩ | ⟨_, _, h⟩
    · exact ⟨_, _, h, commandChanges_refl _ _ s⟩
    · exact ⟨_, _, h, commandChanges_refl _ _ s⟩
    · exact ⟨_, _, h, commandChanges_setSlots _ (by simp [isSectorCommand]) s _⟩
  | xtsEnc => exact sectorCommand_eq_finish (.inl rfl) (fun k sector _ => xtsEnc_length _ k sector) s
  | xtsDec => exact sectorCommand_eq_finish (.inr rfl) (fun k sector _ => xtsDec_length _ k sector) s
  | gfMula => exact ⟨_, _, rfl, commandChanges_setT _ (by simp [isSectorCommand]) s _⟩
  | twInit =>
    rcases twInitOn_cases Config.hw s with ⟨_, h⟩ | ⟨_, _, h⟩
    · exact ⟨_, _, h, commandChanges_refl _ _ s⟩
    · exact ⟨_, _, h, commandChanges_setT _ (by simp [isSectorCommand]) s _⟩
  | twAdv => exact ⟨_, _, rfl, commandChanges_setT _ (by simp [isSectorCommand]) s _⟩
  | xtsDrop => exact ⟨_, _, rfl, commandChanges_setSlots _ (by simp [isSectorCommand]) s _⟩

/-- Settles O37: `finish` touches STATUS, PHASE and the working registers alone, so what the command
itself may change is all that changes. -/
theorem commandFootprint : Obligations.CommandFootprint := by
  intro i s
  obtain ⟨e, u, heq, hops, houtside, hmemory, hkeeps⟩ := execState_eq_finish i s
  exact ⟨finish e u, by rw [exec_eq, heq], rfl, rfl, workEmpty_finish e u,
    sameOperands_finish e hops, houtside, hmemory, hkeeps⟩

end Sys2Proof.Machine
end

section
/-! The host port (spec/20_memory.md R50 to R53): what a write stores, what a read replies, and what
neither depends on. -/

namespace Sys2Proof.Machine

/-! ### Writes while BUSY -/

theorem hostWrite_busy {hw : Hw} {s : State} (hbusy : s.phase = .busy) (r v : Nat) :
    hostWrite hw r v s = s :=
  if_pos ((busy_eq_true s).mpr hbusy)

theorem hostWriteByte_busy {hw : Hw} {s : State} (hbusy : s.phase = .busy) (r i : Nat) (b : Byte) :
    hostWriteByte hw r i b s = s :=
  if_pos ((busy_eq_true s).mpr hbusy)

/-- Settles O41: the step is the write on the state with the input used up, and BUSY drops it. -/
theorem writesWhileBusyAreDropped : Obligations.WritesWhileBusyAreDropped := by
  intro s a rest hbusy hin hwrite
  rw [step_host hin]
  rcases hwrite with ⟨r, v, rfl⟩ | ⟨r, i, b, rfl⟩
  · exact congrArg Host.Outcome.next (hostWrite_busy (s := { s with inputs := rest }) hbusy r v)
  · exact congrArg Host.Outcome.next (hostWriteByte_busy (s := { s with inputs := rest }) hbusy r i b)

/-! ### Reads -/

/-- Settles O44: a read appends its reply and leaves the rest to the draw counter and the claims. -/
theorem portReadsChangeNothing : Obligations.PortReadsChangeNothing := by
  rintro s a (⟨r, rfl⟩ | ⟨r, i, rfl⟩)
  · exact ⟨_, .scalar r (hostRead Config.hw r s), rfl, rfl⟩
  · exact ⟨_, .byte r i (hostReadByte Config.hw r i s), rfl, rfl⟩

theorem hostRead_status (hw : Hw) (s : State) : hostRead hw 1 s = s.status.toNat := rfl

theorem hostRead_idle {hw : Hw} {s : State} (hidle : s.phase = .idle) {r : Nat} (hr : r ≠ 1) :
    hostRead hw r s = regValue hw r s := by
  simp [hostRead, hr, hidle]

/-- The widths of the registers a scalar read can name (R24). -/
theorem regWidth_scalar (hw : Hw) {r : Nat} (hr : r ≤ 7) :
    regWidth hw r = if r = 3 then 64 else if 4 ≤ r then hw.aw else 32 := by
  interval_cases r <;> rfl

/-- The values of the registers a scalar read can name, in one expression (R52). -/
theorem regValue_eq (hw : Hw) (r : Nat) (s : State) :
    regValue hw r s =
      if r = 2 then s.klen.toNat
      else if r = 3 then s.sector.toNat
      else if r = 4 then s.srcAddr hw
      else if r = 5 then s.dstAddr hw
      else if r = 6 then s.lenVal hw
      else if r = 7 then s.dcapVal hw
      else 0 := by
  by_cases hr : r ≤ 7
  · interval_cases r <;> rfl
  · have hne : ∀ n ≤ 7, r ≠ n := fun n hn => by omega
    simp [regValue_absent hw s (r := r) (by omega), hne]

/-- In BUSY a scalar read fits the register's width: STATUS has 32 bits, and a free value is cut to the
width. -/
theorem hostRead_busy_lt {hw : Hw} {s : State} (hbusy : s.phase = .busy) (r : Nat) :
    hostRead hw r s < 2 ^ regWidth hw r := by
  by_cases hr : r = 1
  · subst hr
    exact s.status.isLt
  · simp only [hostRead, hr, (busy_eq_true s).mpr hbusy, if_true, if_false]
    exact Nat.mod_lt _ (Nat.two_pow_pos _)

theorem hostReadByte_tweak {hw : Hw} {s : State} (hidle : s.phase = .idle) {i : Nat} (hi : i < 16) :
    hostReadByte hw 8 i s = blockByte s.t i := by
  simp [hostReadByte, hi, hidle]

/-- Settles O59: the step replies `hostRead` or `hostReadByte`, whose values are read off register by
register. -/
theorem portReadsReplyRegisters : Obligations.PortReadsReplyRegisters := by
  constructor
  · intro s r rest hin
    refine ⟨_, hostRead Config.hw r s, step_host hin, rfl, ?_, fun hidle hr => ?_, fun hbusy hr => ?_⟩
    · rintro rfl
      exact hostRead_status Config.hw s
    · rw [hostRead_idle hidle hr]
      exact regValue_eq Config.hw r s
    · rw [← regWidth_scalar Config.hw hr]
      exact hostRead_busy_lt hbusy r
  · intro s r i rest hin
    refine ⟨_, hostReadByte Config.hw r i s, step_host hin, rfl, ?_, fun h => if_neg h⟩
    rintro hidle rfl hi
    exact hostReadByte_tweak hidle hi

/-! ### A scalar write -/

/-- A written scalar register holds the value modulo its width (R50). -/
theorem regValue_hostWrite {hw : Hw} (haw : hw.aw ≤ 64) {s : State} (hidle : s.phase = .idle)
    {r : Nat} (h2 : 2 ≤ r) (h7 : r ≤ 7) (v : Nat) :
    regValue hw r (hostWrite hw r v s) = v % 2 ^ regWidth hw r := by
  have hbusy : s.busy = false := (busy_eq_false s).mpr hidle
  unfold hostWrite
  rw [hbusy, if_neg Bool.false_ne_true]
  interval_cases r
  · exact BitVec.toNat_ofNat v 32
  · exact BitVec.toNat_ofNat v 64
  all_goals exact addrVal_addrReg haw v

/-- A scalar write leaves every other register's value. -/
theorem regValue_hostWrite_other {hw : Hw} {s : State} {r r' : Nat} (h2 : 2 ≤ r) (hne : r' ≠ r)
    (v : Nat) : regValue hw r' (hostWrite hw r v s) = regValue hw r' s := by
  unfold hostWrite
  split
  · rfl
  · split
    case h_1 => omega
    case h_8 => rfl
    all_goals simp [regValue_eq, hne, State.srcAddr, State.dstAddr, State.lenVal, State.dcapVal]

/-- A scalar write keeps PHASE, STATUS, T, KEY, the key slots and memory. -/
theorem hostWrite_scalar_keeps (hw : Hw) {r : Nat} (h2 : 2 ≤ r) (v : Nat) (s : State) :
    (hostWrite hw r v s).phase = s.phase ∧ (hostWrite hw r v s).status = s.status ∧
    (hostWrite hw r v s).t = s.t ∧ (hostWrite hw r v s).key = s.key ∧
    (hostWrite hw r v s).slots = s.slots ∧ (hostWrite hw r v s).mem = s.mem := by
  rcases hostWrite_cases hw r v s with e | ⟨_, ⟨h0, _⟩ | e | e | e | e | e | e⟩
  case inr.inl => omega
  all_goals rw [e]; exact ⟨rfl, rfl, rfl, rfl, rfl, rfl⟩

/-- Settles O42: STATUS reads by its own word, every other register by its value. -/
theorem registerWriteReadsBack : Obligations.RegisterWriteReadsBack := by
  refine ⟨fun s r v rest hin => step_host hin, fun s r v hidle h2 h7 => ?_⟩
  obtain ⟨hphase, hstatus, ht, hkey, hslots, hmem⟩ := hostWrite_scalar_keeps Config.hw h2 v s
  have hidle' := hphase.trans hidle
  refine ⟨?_, fun r' hne => ?_, ht, hkey, hslots, hmem, hphase⟩
  · rw [hostRead_idle hidle' (by omega)]
    exact regValue_hostWrite Config.hw_lawful.aw_le hidle h2 h7 v
  · by_cases h1 : r' = 1
    · rw [h1, hostRead_status, hostRead_status, hstatus]
    · rw [hostRead_idle hidle' h1, hostRead_idle hidle h1, regValue_hostWrite_other h2 hne]

/-! ### A byte write -/

/-- What `HostWriteByte` does in IDLE: T and KEY each take the byte when it is theirs (R51). -/
theorem hostWriteByte_idle {hw : Hw} {s : State} (hidle : s.phase = .idle) (r i : Nat) (b : Byte) :
    hostWriteByte hw r i b s =
      { s with
        t := if r = 8 ∧ i < 16 then blockSetByte s.t i b else s.t
        key := if r = 9 ∧ i < keyBytes hw then s.key.put i b else s.key } := by
  have hbusy : s.busy = false := (busy_eq_false s).mpr hidle
  unfold hostWriteByte
  rw [hbusy, if_neg Bool.false_ne_true]
  by_cases h8 : r = 8 ∧ i < 16
  · have h9 : ¬ (r = 9 ∧ i < keyBytes hw) := by omega
    rw [if_pos h8, if_pos h8, if_neg h9]
    rfl
  · rw [if_neg h8, if_neg h8]
    split <;> rfl

theorem hostWriteByte_phase (hw : Hw) (r i : Nat) (b : Byte) (s : State) :
    (hostWriteByte hw r i b s).phase = s.phase := by
  rcases hostWriteByte_cases hw r i b s with e | ⟨_, e | ⟨_, e⟩⟩ <;> rw [e]
  rfl

/-- The bytes of T after a byte write. -/
theorem blockByte_hostWriteByte {hw : Hw} {s : State} (hidle : s.phase = .idle) (r i : Nat)
    (b : Byte) {j : Nat} (hj : j < 16) :
    blockByte (hostWriteByte hw r i b s).t j = if r = 8 ∧ i = j then b else blockByte s.t j := by
  rw [hostWriteByte_idle hidle]
  by_cases h8 : r = 8 ∧ i < 16
  · rw [if_pos h8, blockByte_blockSetByte s.t i j b hj]
    simp only [h8.1, true_and, eq_comm]
  · have hne : ¬ (r = 8 ∧ i = j) := by omega
    rw [if_neg h8, if_neg hne]

/-- The bytes of KEY after a byte write. -/
theorem keyByte_hostWriteByte {hw : Hw} {s : State} (hidle : s.phase = .idle)
    (hwf : s.key.wf = true) (r i : Nat) (b : Byte) (j : Nat) :
    (hostWriteByte hw r i b s).key.byteAt j =
      if r = 9 ∧ i = j ∧ i < keyBytes hw then b else s.key.byteAt j := by
  rw [hostWriteByte_idle hidle]
  by_cases h9 : r = 9 ∧ i < keyBytes hw
  · rw [if_pos h9, byteAt_put i j b hwf]
    simp only [h9.1, h9.2, true_and, and_true, eq_comm]
  · have hne : ¬ (r = 9 ∧ i = j ∧ i < keyBytes hw) := by tauto
    rw [if_neg h9, if_neg hne]

/-- Settles O43: T and KEY byte by byte, and T reads back through the port as it stands. -/
theorem byteWriteSetsOneByte : Obligations.ByteWriteSetsOneByte := by
  refine ⟨fun s r i b rest hin => step_host hin, fun s r i b hidle hwf => ?_⟩
  have hphase := (hostWriteByte_phase Config.hw r i b s).trans hidle
  refine ⟨fun j hj => blockByte_hostWriteByte hidle r i b hj, fun j hj => ?_,
    keyByte_hostWriteByte hidle hwf r i b, ?_⟩
  · rw [hostReadByte_tweak hphase hj, blockByte_hostWriteByte hidle r i b hj]
  · rw [hostWriteByte_idle hidle]

/-! ### What the port never shows -/

/-- `s` with other contents of KEY, the key slots and the working registers. -/
def State.withSecrets (s : State) (key : Memory) (slots : Option KeyPair)
    (w w1 cc blk : Option Block) (tail : Option Bytes) : State :=
  { s with key := key, slots := slots, w := w, w1 := w1, cc := cc, blk := blk, tail := tail }

theorem hostWrite_replies_mem (hw : Hw) (r v : Nat) (s : State) :
    (hostWrite hw r v s).replies = s.replies ∧ (hostWrite hw r v s).mem = s.mem := by
  rcases hostWrite_cases hw r v s with e | ⟨_, ⟨_, e⟩ | e | e | e | e | e | e⟩ <;> rw [e] <;>
    exact ⟨rfl, rfl⟩

theorem hostWriteByte_replies_mem (hw : Hw) (r i : Nat) (b : Byte) (s : State) :
    (hostWriteByte hw r i b s).replies = s.replies ∧ (hostWriteByte hw r i b s).mem = s.mem := by
  rcases hostWriteByte_cases hw r i b s with e | ⟨_, e | ⟨_, e⟩⟩ <;> rw [e] <;> exact ⟨rfl, rfl⟩

/-- Whether a store of the host runs depends on the claims alone. -/
theorem hostStore_of_claims {hw : Hw} {a : Nat} {bytes : Bytes} {s s' t : State}
    (hclaims : s'.claims = s.claims) (h : hostStore hw a bytes s = .next t) :
    hostStore hw a bytes s' = .next (s'.setMem (memWrite s'.mem a bytes)) := by
  unfold hostStore at h ⊢
  rw [hclaims]
  split_ifs at h ⊢
  rfl

/-- Whether a load of the host runs depends on the claims alone. -/
theorem hostLoad_of_claims {hw : Hw} {a n : Nat} {s s' t : State}
    (hclaims : s'.claims = s.claims) (h : hostLoad hw a n s = .next t) :
    hostLoad hw a n s' =
      .next { s' with replies := s'.replies ++ [.bytes a (memRead s'.mem a n)] } := by
  unfold hostLoad at h ⊢
  rw [hclaims]
  split_ifs at h ⊢
  rfl

section
variable {key : Memory} {slots : Option KeyPair} {w w1 cc blk : Option Block} {tail : Option Bytes}

theorem status_withSecrets {s : State} (hkeyed : slots.isSome = s.slots.isSome) :
    (s.withSecrets key slots w w1 cc blk tail).status = s.status := by
  have hk : (s.withSecrets key slots w w1 cc blk tail).keyed = s.keyed := hkeyed
  unfold State.status
  rw [hk]
  rfl

/-- STATUS shows KEYED; no other scalar read looks at a secret. -/
theorem hostRead_withSecrets (hw : Hw) {s : State} (hkeyed : slots.isSome = s.slots.isSome)
    (r : Nat) : hostRead hw r (s.withSecrets key slots w w1 cc blk tail) = hostRead hw r s := by
  unfold hostRead
  rw [status_withSecrets hkeyed]
  rfl

/-- Every host action runs on the other secrets as well, with the same replies and memory. -/
theorem hostAct_withSecrets {hw : Hw} {s t : State} {a : HostAction}
    (hkeyed : slots.isSome = s.slots.isSome) (h : hostAct hw a s = .next t) :
    ∃ t', hostAct hw a (s.withSecrets key slots w w1 cc blk tail) = .next t' ∧
      t'.replies = t.replies ∧ t'.mem = t.mem := by
  cases a with
  | write r v =>
    cases h
    obtain ⟨hr, hm⟩ := hostWrite_replies_mem hw r v s
    obtain ⟨hr', hm'⟩ :=
      hostWrite_replies_mem hw r v (s.withSecrets key slots w w1 cc blk tail)
    exact ⟨_, rfl, hr'.trans hr.symm, hm'.trans hm.symm⟩
  | writeByte r i b =>
    cases h
    obtain ⟨hr, hm⟩ := hostWriteByte_replies_mem hw r i b s
    obtain ⟨hr', hm'⟩ :=
      hostWriteByte_replies_mem hw r i b (s.withSecrets key slots w w1 cc blk tail)
    exact ⟨_, rfl, hr'.trans hr.symm, hm'.trans hm.symm⟩
  | read r =>
    cases h
    exact ⟨_, rfl, congrArg (s.replies ++ [.scalar r ·]) (hostRead_withSecrets hw hkeyed r), rfl⟩
  | readByte r i => cases h; exact ⟨_, rfl, rfl, rfl⟩
  | mem a bytes =>
    refine ⟨_, hostStore_of_claims (s := s) rfl h, ?_⟩
    rw [(hostStore_next h).2]
    exact ⟨rfl, rfl⟩
  | dump a n =>
    refine ⟨_, hostLoad_of_claims (s := s) rfl h, ?_⟩
    rw [hostLoad_next h]
    exact ⟨rfl, rfl⟩

end

/-- Settles O46: the two runs start from `s` and from `s` with other secrets. -/
theorem secretsNeverReadThroughPort : Obligations.SecretsNeverReadThroughPort := by
  intro s t a key slots w w1 cc blk tail hkeyed h
  exact hostAct_withSecrets hkeyed h

end Sys2Proof.Machine
end

section
/-! `loadkey` (spec/30_encoding.md R86): one byte write of KEY after the other is one `MemWrite` to it. -/

namespace Sys2Proof.Machine

/-! ### Runs -/

theorem run_succ_of_step {s t : State} (h : step s = .next t) (n : Nat) :
    core.run (n + 1) s = core.run n t := by
  have hstep : core.step s = .next t := h
  simp [Host.Core.run, hstep]

/-- A run of `n + k` steps goes on from where the first `n` end. -/
theorem run_add {n : Nat} : ∀ {s t : State}, core.run n s = .next t →
    ∀ k, core.run (n + k) s = core.run k t := by
  induction n with
  | zero =>
    intro s t h k
    cases h
    rw [Nat.zero_add]
  | succ n ih =>
    intro s t h k
    cases hstep : core.step s with
    | next u =>
      rw [run_succ_of_step hstep] at h
      rw [Nat.succ_add, run_succ_of_step hstep, ih h k]
    | fault r => simp [Host.Core.run, hstep] at h
    | refused r => simp [Host.Core.run, hstep] at h

/-! ### Filling KEY -/

/-- One byte write of KEY in range (R51). -/
theorem step_writeByte_key {s : State} (hidle : s.phase = .idle) {i : Nat} {b : Byte}
    {rest : List Input} (hin : s.inputs = .host (.writeByte 9 i b) :: rest)
    (hi : i < keyBytes Config.hw) :
    step s = .next { s with key := s.key.put i b, inputs := rest } := by
  have hput := hostWriteByte_idle (hw := Config.hw) (s := { s with inputs := rest }) hidle 9 i b
  rw [if_neg (by omega), if_pos ⟨rfl, hi⟩] at hput
  exact (step_host hin).trans (congrArg Host.Outcome.next hput)

/-- The write of KLEN (R50). -/
theorem step_write_klen {s : State} (hidle : s.phase = .idle) {v : Nat} {rest : List Input}
    (hin : s.inputs = writeReg .klen v :: rest) :
    step s = .next { s with klen := BitVec.ofNat 32 v, inputs := rest } := by
  have hwrite : hostWrite Config.hw 2 v { s with inputs := rest } =
      { s with klen := BitVec.ofNat 32 v, inputs := rest } :=
    if_neg (by simp [hidle])
  exact (step_host hin).trans (congrArg Host.Outcome.next hwrite)

/-- The steps of `wrb KEY+k` write the whole sequence to KEY from byte `k`. -/
theorem run_writeBytes_key (rest : List Input) : ∀ (bytes : Bytes) (k : Nat) (s : State),
    s.phase = .idle → s.inputs = writeBytes 9 k bytes ++ rest →
    k + bytes.length ≤ keyBytes Config.hw →
    core.run bytes.length s = .next ({ s with key := memWrite s.key k bytes, inputs := rest } : State)
  | [], k, s, _, hin, _ => by
    have hin' : s.inputs = rest := hin
    subst hin'
    rfl
  | b :: bytes, k, s, hidle, hin, hfit => by
    rw [List.length_cons] at hfit
    have hstep := step_writeByte_key hidle hin (by omega)
    rw [List.length_cons, run_succ_of_step hstep]
    exact run_writeBytes_key rest bytes (k + 1) _ hidle rfl (by omega)

/-- Settles O58: the byte writes fill KEY from index 0, and one step more sets KLEN. -/
theorem loadKeyFillsKey : Obligations.LoadKeyFillsKey := by
  intro s bytes rest hidle hwf hin hfit
  have hin' : s.inputs = writeBytes 9 0 bytes ++ (writeReg .klen bytes.length :: rest) := by
    rw [hin, loadKey, List.append_assoc]
    rfl
  have hfill := run_writeBytes_key _ bytes 0 s hidle hin' (by omega)
  have hklen := step_write_klen
    (s := { s with key := memWrite s.key 0 bytes, inputs := writeReg .klen bytes.length :: rest })
    hidle rfl
  refine ⟨{ s with key := memWrite s.key 0 bytes, klen := BitVec.ofNat 32 bytes.length,
                   inputs := rest }, ?_, rfl, BitVec.toNat_ofNat bytes.length 32, fun j => ?_⟩
  · rw [run_add hfill 1, run_succ_of_step hklen]
    rfl
  · simp [byteAt_memWrite_eq 0 bytes j hwf]

end Sys2Proof.Machine
end

section
/-! The decoder as a partition of the words (spec/30_encoding.md R76, R79): the seven command words
decode, every other word is refused. -/

namespace Sys2Proof.Machine

/-- `ZERO` above `OP` is the word the opcode map writes (R75, R76). -/
theorem encode_eq_commandWord (i : Instr) : encode i = commandWord i := by cases i <;> rfl

/-- The per-command laws as one statement. -/
theorem decodesBack (i : Instr) : Laws.DecodesBack.Statement i := by
  cases i with
  | xtsNew => exact Laws.DecodesBack.xtsNew
  | xtsEnc => exact Laws.DecodesBack.xtsEnc
  | xtsDec => exact Laws.DecodesBack.xtsDec
  | gfMula => exact Laws.DecodesBack.gfMula
  | twInit => exact Laws.DecodesBack.twInit
  | twAdv => exact Laws.DecodesBack.twAdv
  | xtsDrop => exact Laws.DecodesBack.xtsDrop

theorem decode_commandWord (i : Instr) : decode (commandWord i) = .ok i := by
  obtain ⟨_, hdecode, _⟩ := decodesBack i
  rwa [encode_eq_commandWord] at hdecode

theorem decode_eq_ok_iff (w : BitVec 32) (i : Instr) : decode w = .ok i ↔ w = commandWord i :=
  ⟨eq_commandWord_of_decode, fun h => h ▸ decode_commandWord i⟩

/-! ### Illegal words -/

/-- The opcodes without a command (R79). -/
theorem opcodeInstr_eq_none_iff (op : BitVec 4) :
    opcodeInstr op = none ↔ op = 0#4 ∨ 8 ≤ op.toNat := by
  revert op
  decide

/-- Set reserved bits are refused whatever the opcode. -/
theorem decode_reservedBits {w : BitVec 32} (h : w.extractLsb' 4 28 ≠ 0#28) :
    decode w = .error .reservedBitsSet := by
  simp [decode, cmdFields, h]

theorem decode_reservedOpcode {w : BitVec 32} (hzero : w.extractLsb' 4 28 = 0#28)
    (hop : opcodeInstr (w.extractLsb' 0 4) = none) :
    decode w = .error (.reservedOpcode (w.extractLsb' 0 4)) := by
  simp [decode, cmdFields, hzero, hop]

theorem decode_opcode {w : BitVec 32} {i : Instr} (hzero : w.extractLsb' 4 28 = 0#28)
    (hop : opcodeInstr (w.extractLsb' 0 4) = some i) : decode w = .ok i := by
  simp [decode, cmdFields, hzero, hop]

/-- The decoder refuses exactly the illegal words (R79). -/
theorem decode_error_iff (w : BitVec 32) : (∃ e, decode w = .error e) ↔ IllegalWord w := by
  by_cases hzero : w.extractLsb' 4 28 = 0#28
  · have hillegal : IllegalWord w ↔ opcodeInstr (w.extractLsb' 0 4) = none := by
      simp [IllegalWord, hzero, opcodeInstr_eq_none_iff]
    rw [hillegal]
    cases hop : opcodeInstr (w.extractLsb' 0 4) with
    | none => exact iff_of_true ⟨_, decode_reservedOpcode hzero hop⟩ rfl
    | some i => simp [decode_opcode hzero hop]
  · exact iff_of_true ⟨_, decode_reservedBits hzero⟩ (.inl hzero)

/-- Settles O2: the decoder inverts the opcode map, and what the map does not hold it refuses. -/
theorem everyWordIsOneCommandOrIllegal : Obligations.EveryWordIsOneCommandOrIllegal :=
  ⟨decode_eq_ok_iff, encode_eq_commandWord, decode_error_iff⟩

/-- Settles O1: the seven words by the opcode map, the five refusals by running the decoder. -/
theorem sevenCommandWordsDecode : Obligations.SevenCommandWordsDecode := by
  refine ⟨decode_commandWord .xtsNew, decode_commandWord .xtsEnc, decode_commandWord .xtsDec,
    decode_commandWord .gfMula, decode_commandWord .twInit, decode_commandWord .twAdv,
    decode_commandWord .xtsDrop, ?_⟩
  decide

end Sys2Proof.Machine
end

section
/-! Issue, completion and `wait` (spec/30_encoding.md R77, R78, R84, R86): the write of CMD puts a word
in flight, the engine's turn ends it, and the STATUS read after that returns BUSY = 0. -/

namespace Sys2Proof.Machine

/-! ### Issue -/

/-- In IDLE the write of CMD issues the word (R77). -/
theorem step_write_cmd {s : State} (hidle : s.phase = .idle) {v : Nat} {rest : List Input}
    (hin : s.inputs = .host (.write 0 v) :: rest) :
    step s = .next (issue Config.hw (BitVec.ofNat 32 v) { s with inputs := rest }) := by
  have hwrite : hostWrite Config.hw 0 v { s with inputs := rest } =
      issue Config.hw (BitVec.ofNat 32 v) { s with inputs := rest } :=
    if_neg (by simp [hidle])
  exact (step_host hin).trans (congrArg Host.Outcome.next hwrite)

/-- Settles O40: in IDLE the write issues, and what issue changes is the statement's list; in BUSY every
host write is dropped. -/
theorem cmdWriteIssues : Obligations.CmdWriteIssues := by
  intro s v rest hin
  refine ⟨fun hidle => ⟨_, step_write_cmd hidle hin⟩, fun hbusy => ?_⟩
  exact writesWhileBusyAreDropped s _ rest hbusy hin (.inl ⟨0, v, rfl⟩)

/-! ### Completion -/

/-- `atEngineTurn_eq` with the input that is used up. -/
theorem atEngineTurn_eq_or_engine (s : State) : s.atEngineTurn = s ∨
    ∃ rest, s.inputs = .engine :: rest ∧ s.atEngineTurn = { s with inputs := rest } := by
  cases hin : s.inputs with
  | nil => simp [State.atEngineTurn, hin]
  | cons x rest =>
    cases x with
    | engine => exact .inr ⟨rest, rfl, by simp [State.atEngineTurn, State.popInput, hin]⟩
    | host a => simp [State.atEngineTurn, hin]
    | wait => simp [State.atEngineTurn, hin]
    | reset => simp [State.atEngineTurn, hin]

/-- Settles O4: the engine's turn completes the word in CMDREG, which no input changes. -/
theorem stepRunsTheDecodedCommand : Obligations.StepRunsTheDecodedCommand := by
  intro s i hbusy hengine hdecode
  refine ⟨?_, atEngineTurn_eq_or_engine s⟩
  rw [step_engine hbusy hengine]
  exact complete_ok (by rwa [atEngineTurn_cmdReg])

/-- Settles O5: a placed word is in flight with an engine turn before everything else, and using that
turn up gives the state after the issue back. -/
theorem placedWordRunsNext : Obligations.PlacedWordRunsNext := by
  intro s w i hdecode
  have hword : BitVec.ofNat 32 (w % 2 ^ 32) = BitVec.ofNat 32 w := by
    apply BitVec.eq_of_toNat_eq
    simp
  have hplaced : (s.withFetchWord 32 w).atEngineTurn = issue Config.hw (BitVec.ofNat 32 w) s := by
    rw [State.withFetchWord, hword]
    rfl
  rw [step_engine rfl rfl, hplaced]
  exact complete_ok hdecode

/-- A command's word in flight ends in the state its command leaves. -/
theorem complete_commandWord {s : State} {i : Instr} (h : s.cmdReg = commandWord i) :
    complete s = .next (execState i s) :=
  (complete_ok (h ▸ decode_commandWord i)).trans (exec_eq i s)

/-- Completion leaves IDLE and DONE, the working registers empty, and the operands and the host's side
as they were, for a legal word and for an illegal one. -/
theorem complete_ends {s t : State} (h : complete s = .next t) :
    t.phase = .idle ∧ t.done = true ∧ WorkEmpty t ∧ SameOperands s t := by
  rcases complete_cases h with ⟨i, _, rfl⟩ | rfl
  · obtain ⟨e, u, heq, hops, _⟩ := execState_eq_finish i s
    rw [heq]
    exact ⟨rfl, rfl, workEmpty_finish e u, sameOperands_finish e hops⟩
  · exact ⟨rfl, rfl, workEmpty_finish _ s, (onlyStatus_raise _ s).operands⟩

/-- Settles O48: the engine's step is the completion, which always answers a next state. -/
theorem everyCommandCompletes : Obligations.EveryCommandCompletes := by
  intro s hbusy hengine
  obtain ⟨t, ht⟩ := complete_next s.atEngineTurn
  obtain ⟨hphase, hdone, hwork, _⟩ := complete_ends ht
  refine ⟨t, (step_engine hbusy hengine).trans ht, hphase, hdone, ?_, hwork⟩
  rw [status_getLsbD, if_pos rfl, busy_eq_false, hphase]

/-! ### `wait` -/

theorem reply_idle {s : State} (hidle : s.phase = .idle) (r : Reply) :
    reply r s = { s with replies := s.replies ++ [r] } := by
  rw [reply, (busy_eq_false s).mpr hidle, if_neg Bool.false_ne_true]

theorem dropClaims_status_idle {s : State} (hidle : s.phase = .idle) :
    dropClaims 1 s = { s with claims := [] } := by
  rw [dropClaims, if_pos ⟨rfl, (busy_eq_false s).mpr hidle⟩]

/-- In IDLE a STATUS read replies the word and ends the claims (log 11). -/
theorem hostAct_read_status_idle (hw : Hw) {s : State} (hidle : s.phase = .idle) :
    hostAct hw (.read 1) s =
      .next { s with claims := [], replies := s.replies ++ [.scalar 1 s.status.toNat] } := by
  rw [hostAct, hostRead_status, dropClaims_status_idle (s := reply _ s) hidle, reply_idle hidle]

/-- In IDLE a wait is one STATUS read (log 10). -/
theorem step_wait_idle {s : State} (hidle : s.phase = .idle) {rest : List Input}
    (hin : s.inputs = .wait :: rest) :
    step s = .next { s with inputs := rest, claims := [],
                            replies := s.replies ++ [.scalar 1 s.status.toNat] } := by
  have hturn : step s = hostAct Config.hw (.read 1) { s with inputs := rest } := by
    simp [step, nextInput, State.popInput, hin, waitTurn, (busy_eq_false s).mpr hidle]
  exact hturn.trans (hostAct_read_status_idle Config.hw (s := { s with inputs := rest }) hidle)

/-- In BUSY a wait is the completion of the command in flight and then the STATUS read. -/
theorem run_wait_busy {s t : State} (hbusy : s.phase = .busy) {rest : List Input}
    (hin : s.inputs = .wait :: rest) (ht : complete s = .next t) :
    core.run 2 s = .next
      ({ t with inputs := rest, claims := [],
                replies := s.replies ++ [.scalar 1 t.status.toNat] } : State) := by
  have hengine : s.engineNext = true := by simp [State.engineNext, hin, hbusy]
  have hturn : s.atEngineTurn = s := by simp [State.atEngineTurn, hin]
  have hstep : step s = .next t := by rw [step_engine hbusy hengine, hturn, ht]
  obtain ⟨hidle, _, _, hsame⟩ := complete_ends ht
  rw [run_succ_of_step hstep, run_succ_of_step (step_wait_idle hidle (hsame.inputs.trans hin)),
    hsame.replies]
  rfl

/-- Bit 0 of the STATUS word as a number. -/
theorem status_even_of_idle {s : State} (hidle : s.phase = .idle) : s.status.toNat % 2 = 0 := by
  rw [status_toNat, (busy_eq_false s).mpr hidle, Bool.toNat_false]
  omega

/-- Settles O49: the two steps of the wait, the second of which reads STATUS in IDLE. -/
theorem waitYieldsIdleStatus : Obligations.WaitYieldsIdleStatus := by
  intro s rest hbusy hin
  obtain ⟨t, ht⟩ := complete_next s
  obtain ⟨hidle, _⟩ := complete_ends ht
  exact ⟨_, t.status.toNat, run_wait_busy hbusy hin ht, hidle, rfl, rfl, rfl,
    status_even_of_idle hidle⟩

/-- The number `cmd MNEMONIC` writes is captured as the command's word (R77, R84). -/
theorem ofNat_encode_toNat (i : Instr) : BitVec.ofNat 32 (encode i).toNat = commandWord i := by
  rw [BitVec.ofNat_toNat, BitVec.setWidth_eq, encode_eq_commandWord]

/-- Settles O57: the write of CMD issues the command's word, and the wait completes it and reads
STATUS. -/
theorem runLineReportsStatus : Obligations.RunLineReportsStatus := by
  intro s i rest hidle hin
  have hissue := step_write_cmd (v := (encode i).toNat) hidle hin
  rw [ofNat_encode_toNat] at hissue
  refine ⟨_, exec_eq i _, ?_⟩
  rw [run_succ_of_step hissue]
  exact run_wait_busy rfl rfl (complete_commandWord rfl)

end Sys2Proof.Machine
end

section
/-! The tuples of the port operations (spec/30_encoding.md R85). -/

namespace Sys2Proof.Machine

/-- The tuple of a port operation stands for it again. -/
theorem ofPortTuple_of_portTuple {a : HostAction} {p : Nat × Nat × Nat × Nat}
    (h : portTuple a = some p) : ofPortTuple p = some a := by
  cases a with
  | write r v => cases h; rfl
  | writeByte r i b =>
    cases h
    have hfits : b.toNat < 256 := b.isLt
    simp [ofPortTuple, hfits]
  | read r => cases h; rfl
  | readByte r i => cases h; rfl
  | mem a bytes => cases h
  | dump a n => cases h

/-- A tuple that stands for a port operation is that operation's tuple: the four forms leave the unused
positions 0, and the value of a byte write is a byte. -/
theorem portTuple_of_ofPortTuple {a : HostAction} {p : Nat × Nat × Nat × Nat}
    (h : ofPortTuple p = some a) : portTuple a = some p := by
  unfold ofPortTuple at h
  split at h
  · cases h; rfl
  · split at h
    · next hfits =>
      cases h
      simp [portTuple, Nat.mod_eq_of_lt hfits]
    · cases h
  · cases h; rfl
  · cases h; rfl
  · cases h

/-- Settles O47: the forms are read off `portTuple`, and the two directions of the equivalence are the
two lemmas above. -/
theorem portTupleRoundTrip : Obligations.PortTupleRoundTrip := by
  refine ⟨fun _ _ => rfl, fun _ _ _ => rfl, fun _ => rfl, fun _ _ => rfl, fun _ _ => rfl,
    fun _ _ => rfl, fun _ _ => ⟨ofPortTuple_of_portTuple, portTuple_of_ofPortTuple⟩, ?_⟩
  exact ⟨.write 3 94, .write 0 2, .writeByte 8 15 0x80#8, rfl, rfl, rfl, rfl, rfl, rfl⟩

end Sys2Proof.Machine
end

section
/-! MulAlpha as the shift-and-reduce of R100 on one 128-bit word, the byte-wise form (R102) and the
inverse procedure (R104) that follow from it, and the iterates (R105). -/

namespace Sys2Proof.Machine

/-! ### Shift and reduce -/

/-- What a carry-out of `c` folds back into the shifted value. -/
def reduction (c : Bool) : Block := if c then 0x87#128 else 0#128

theorem getLsbD_reduction (c : Bool) (k : Nat) :
    (reduction c).getLsbD k = (c && (0x87#8).getLsbD k) := by
  have hwide : reduction true = (0x87#8).setWidth 128 := rfl
  cases c with
  | false => exact BitVec.getLsbD_zero
  | true =>
    rw [hwide, BitVec.getLsbD_setWidth, Bool.true_and, Bool.and_eq_right_iff_imp,
      decide_eq_true_iff]
    exact fun h => (BitVec.lt_of_getLsbD h).trans (by decide)

theorem mulAlpha_eq (t : Block) : mulAlpha t = (t <<< 1) ^^^ reduction (t.getLsbD 127) := by
  apply BitVec.eq_of_getLsbD_eq
  intro k hk
  rw [mulAlpha_getLsbD t k hk, BitVec.getLsbD_xor, getLsbD_reduction, BitVec.getLsbD_shiftLeft]
  cases k <;> simp [hk]

/-- The shifted value has bit 0 clear and 0x87 has it set, so bit 0 tells whether the reduction was
applied (R104). -/
theorem mulAlpha_getLsbD_zero (t : Block) : (mulAlpha t).getLsbD 0 = t.getLsbD 127 := by
  rw [mulAlpha_getLsbD t 0 (by norm_num)]
  exact (Bool.false_xor _).trans (Bool.and_true _)

/-! ### Byte by byte -/

theorem blockByte_getLsbD (b : Block) (i : Nat) {j : Nat} (hj : j < 8) :
    (blockByte b i).getLsbD j = b.getLsbD (8 * i + j) := by
  simp [blockByte, hj]

/-- The byte's top bit as a byte. -/
theorem blockByte_ushiftRight_seven (b : Block) (i : Nat) :
    blockByte b i >>> 7 = if b.getLsbD (8 * i + 7) then 1#8 else 0#8 := by
  have htop : ∀ x : Byte, x >>> 7 = if x.getLsbD 7 then 1#8 else 0#8 := by decide
  rw [htop, blockByte_getLsbD b i (by norm_num)]

/-- A left shift of the block moves the top bit of byte `i - 1` into byte `i`. -/
theorem blockByte_shiftLeft_one (t : Block) {i : Nat} (h1 : 1 ≤ i) (h16 : i < 16) :
    blockByte (t <<< 1) i = (blockByte t i <<< 1) ||| (blockByte t (i - 1) >>> 7) := by
  apply BitVec.eq_of_getLsbD_eq
  intro j hj
  rw [blockByte_getLsbD _ i hj, blockByte_ushiftRight_seven, BitVec.getLsbD_or,
    BitVec.getLsbD_shiftLeft, BitVec.getLsbD_shiftLeft]
  have hin : 8 * i + j < 128 := by omega
  cases j with
  | zero =>
    have hbit : 8 * (i - 1) + 7 = 8 * i - 1 := by omega
    rw [hbit]
    have hpos : i ≠ 0 := by omega
    have htop : 8 * i < 128 := hin
    cases t.getLsbD (8 * i - 1) <;> simp [hpos, htop]
  | succ j =>
    have hbit : 8 * i + (j + 1) - 1 = 8 * i + j := by omega
    rw [hbit, Nat.add_sub_cancel, blockByte_getLsbD t i (by omega)]
    cases t.getLsbD (8 * (i - 1) + 7) <;> simp [hj, hin]

theorem blockByte_shiftLeft_one_zero (t : Block) : blockByte (t <<< 1) 0 = blockByte t 0 <<< 1 := by
  apply BitVec.eq_of_getLsbD_eq
  intro j hj
  rw [blockByte_getLsbD _ 0 hj, BitVec.getLsbD_shiftLeft, BitVec.getLsbD_shiftLeft,
    blockByte_getLsbD t 0 (by omega)]
  simp [hj, show j < 128 by omega]

theorem blockByte_xor (a b : Block) (i : Nat) :
    blockByte (a ^^^ b) i = blockByte a i ^^^ blockByte b i :=
  BitVec.extractLsb'_xor

/-- The reduction reaches byte 0 alone. -/
theorem blockByte_reduction (c : Bool) {i : Nat} (h16 : i < 16) :
    blockByte (reduction c) i = if i = 0 ∧ c then 0x87#8 else 0x00#8 := by
  revert c i
  decide

/-- Settles O6: the shift moves a bit from byte to byte and the reduction reaches byte 0 alone; OR
and addition go wrong where the shifted byte 0 meets bit 1 of 0x87. -/
theorem mulAlphaBytewise : Obligations.MulAlphaBytewise := by
  refine ⟨fun t => ⟨fun i h1 h16 => ?_, ?_⟩,
    0x80000000000000000000000000000001#128, by decide, by decide, by decide⟩
  · rw [mulAlpha_eq, blockByte_xor, blockByte_shiftLeft_one t h1 h16, blockByte_reduction _ h16,
      if_neg (by omega), BitVec.xor_zero]
  · rw [mulAlpha_eq, blockByte_xor, blockByte_shiftLeft_one_zero,
      blockByte_reduction _ (by norm_num), blockByte_ushiftRight_seven]
    cases t.getLsbD 127 <;> simp

/-! ### Single bits -/

theorem getLsbD_one_shiftLeft {w : Nat} (j : Nat) {k : Nat} (hk : k < w) :
    (1#w <<< j).getLsbD k = decide (k = j) := by
  have hpow : (1#w <<< j).getLsbD k = (decide (j < w) && decide (j = k)) :=
    BitVec.getLsbD_twoPow j k
  rw [hpow, Bool.eq_iff_iff, Bool.and_eq_true, decide_eq_true_iff, decide_eq_true_iff,
    decide_eq_true_iff]
  omega

theorem getLsbD_topBit (c : Bool) {k : Nat} (hk : k < 128) :
    (if c then 1#128 <<< 127 else 0#128).getLsbD k = (c && decide (k = 127)) := by
  cases c with
  | false => exact BitVec.getLsbD_zero
  | true => exact getLsbD_one_shiftLeft 127 hk

/-! ### The inverse procedure -/

/-- The model's inverse as the rule writes it, on one 128-bit word. -/
theorem mulAlphaInv_eq (r : Block) : mulAlphaInv r =
    ((r ^^^ reduction (r.getLsbD 0)) >>> 1) ||| (if r.getLsbD 0 then 1#128 <<< 127 else 0#128) := by
  have hmask : ∀ c : BitVec 1, (0x87#8 &&& mask8 c).setWidth 128 = reduction (c.getLsbD 0) := by
    decide
  have hcarry : (r.extractLsb' 0 1).getLsbD 0 = r.getLsbD 0 := by simp
  rw [mulAlphaInv, hmask, hcarry]
  generalize r ^^^ reduction (r.getLsbD 0) = sh
  apply BitVec.eq_of_getLsbD_eq
  intro k hk
  rw [BitVec.getLsbD_append, BitVec.getLsbD_or, getLsbD_topBit _ hk, BitVec.getLsbD_ushiftRight,
    BitVec.getLsbD_extractLsb', BitVec.getLsbD_extractLsb']
  by_cases hlow : k < 127
  · simp [hlow, hlow.ne]
  · obtain rfl : k = 127 := by omega
    simp

/-- A bit shifted out at the top and put back from the carry. -/
theorem shiftLeft_ushiftRight_or_top (t : Block) :
    ((t <<< 1) >>> 1) ||| (if t.getLsbD 127 then 1#128 <<< 127 else 0#128) = t := by
  apply BitVec.eq_of_getLsbD_eq
  intro k hk
  rw [BitVec.getLsbD_or, getLsbD_topBit _ hk, BitVec.getLsbD_ushiftRight, BitVec.getLsbD_shiftLeft,
    Nat.add_sub_cancel_left]
  by_cases hlow : k < 127
  · have hin : 1 + k < 128 := by omega
    simp [hin, hlow.ne]
  · obtain rfl : k = 127 := by omega
    simp

theorem mulAlphaInv_leftInverse : Function.LeftInverse mulAlphaInv mulAlpha := by
  intro t
  rw [mulAlphaInv_eq, mulAlpha_getLsbD_zero, mulAlpha_eq, BitVec.xor_assoc, BitVec.xor_self,
    BitVec.xor_zero, shiftLeft_ushiftRight_or_top]

/-- Blocks are finitely many, so the left inverse makes MulAlpha a bijection. -/
theorem mulAlpha_bijective : Function.Bijective mulAlpha :=
  Finite.injective_iff_bijective.mp mulAlphaInv_leftInverse.injective

theorem mulAlpha_eq_iff (t r : Block) : mulAlpha t = r ↔ t = mulAlphaInv r := by
  have hright := mulAlphaInv_leftInverse.rightInverse_of_surjective mulAlpha_bijective.surjective
  exact ⟨fun h => h ▸ (mulAlphaInv_leftInverse t).symm, fun h => h ▸ hright r⟩

/-- Settles O8: the rule's procedure is the model's inverse, and that undoes MulAlpha. -/
theorem mulAlphaIsBijective : Obligations.MulAlphaIsBijective := by
  refine ⟨mulAlpha_bijective, mulAlpha_eq_iff, fun t r => ?_⟩
  rw [mulAlpha_eq_iff, mulAlphaInv_eq]
  exact ⟨fun h => ⟨_, rfl, h⟩, fun ⟨_, hsh, h⟩ => hsh ▸ h⟩

/-! ### Iterates -/

theorem tweakAt_eq_iterate (t : Block) (j : Nat) : tweakAt t j = mulAlpha^[j] t := by
  induction j with
  | zero => rfl
  | succ j ih => rw [tweakAt, ih, advance, Function.iterate_succ_apply']

/-- Without a carry-out MulAlpha moves the single bit up by one. -/
theorem iterate_mulAlpha_one {j : Nat} (hj : j < 128) : mulAlpha^[j] 1#128 = 1#128 <<< j := by
  induction j with
  | zero => rfl
  | succ j ih =>
    have hcarry : (1#128 <<< j).getLsbD 127 = false := by
      rw [getLsbD_one_shiftLeft j (by norm_num), decide_eq_false_iff_not]
      omega
    rw [Function.iterate_succ_apply', ih (by omega), mulAlpha_eq, hcarry, BitVec.shiftLeft_add]
    exact BitVec.xor_zero

theorem blockByte_one_shiftLeft (j : Nat) {i : Nat} (hi : i < 16) :
    blockByte (1#128 <<< j) i = if i = j / 8 then 1#8 <<< (j % 8) else 0#8 := by
  apply BitVec.eq_of_getLsbD_eq
  intro b hb
  rw [blockByte_getLsbD _ i hb, getLsbD_one_shiftLeft j (by omega)]
  have hdiv := Nat.div_add_mod j 8
  split
  · rw [getLsbD_one_shiftLeft _ hb, decide_eq_decide]
    omega
  · rw [BitVec.getLsbD_zero, decide_eq_false_iff_not]
    omega

/-- Settles O9: one bit walks up to bit 127, and the 128th step is the reduction alone. -/
theorem mulAlphaIterates : Obligations.MulAlphaIterates := by
  refine ⟨tweakAt_eq_iterate, fun j hj i hi => ?_, ?_⟩
  · rw [iterate_mulAlpha_one hj, blockByte_one_shiftLeft j hi]
  · rw [Function.iterate_succ_apply', iterate_mulAlpha_one (by norm_num)]
    decide

end Sys2Proof.Machine
end

section
/-! MulAlpha as multiplication by `x` in GF(2^128) (spec/00_scope.md R17, spec/40_gf128.md R103). -/

open Polynomial

namespace Sys2Proof.Machine

/-! ### The polynomial of a block -/

theorem coeff_blockPoly (b : Block) (k : Nat) :
    (blockPoly b).coeff k = if b.getLsbD k then 1 else 0 := by
  have hterm : ∀ j, (if b.getLsbD j then X ^ j else 0 : (ZMod 2)[X]).coeff k =
      if k = j then (if b.getLsbD k then 1 else 0) else 0 := by
    intro j
    by_cases hj : k = j
    · subst hj
      cases b.getLsbD k <;> simp
    · cases b.getLsbD j <;> simp [coeff_X_pow, hj]
  rw [blockPoly, finsetSum_coeff]
  simp only [hterm, Finset.sum_ite_eq, Finset.mem_range]
  split
  · rfl
  · next hout => rw [BitVec.getLsbD_of_ge b k (not_lt.mp hout)]; rfl

theorem degree_blockPoly_lt (b : Block) : (blockPoly b).degree < (128 : ℕ) := by
  refine (degree_lt_iff_coeff_zero _ 128).mpr fun k hk => ?_
  rw [coeff_blockPoly, BitVec.getLsbD_of_ge b k hk]
  rfl

/-- Over GF(2) the sum of polynomials is the XOR of blocks. -/
theorem blockPoly_xor (a b : Block) : blockPoly (a ^^^ b) = blockPoly a + blockPoly b := by
  ext k
  rw [coeff_add, coeff_blockPoly, coeff_blockPoly, coeff_blockPoly, BitVec.getLsbD_xor]
  cases a.getLsbD k <;> cases b.getLsbD k <;> decide

theorem blockPoly_one_shiftLeft {j : Nat} (hj : j < 128) : blockPoly (1#128 <<< j) = X ^ j := by
  ext k
  rw [coeff_blockPoly, coeff_X_pow]
  by_cases hk : k < 128
  · simp [getLsbD_one_shiftLeft j hk]
  · rw [BitVec.getLsbD_of_ge _ k (not_lt.mp hk), if_neg (show ¬ k = j by omega)]
    rfl

/-- The shift multiplies by `x`, and the carry-out is the coefficient of `x^128`. -/
theorem X_mul_blockPoly (t : Block) :
    X * blockPoly t = blockPoly (t <<< 1) + if t.getLsbD 127 then X ^ 128 else 0 := by
  ext k
  rw [coeff_add, coeff_blockPoly, BitVec.getLsbD_shiftLeft]
  cases k with
  | zero => cases t.getLsbD 127 <;> simp
  | succ k =>
    rw [coeff_X_mul, coeff_blockPoly]
    by_cases hk : k = 127
    · subst hk
      cases t.getLsbD 127 <;> simp [coeff_X_pow]
    · have hcarry : (if t.getLsbD 127 then X ^ 128 else 0 : (ZMod 2)[X]).coeff (k + 1) = 0 := by
        cases t.getLsbD 127 <;> simp [coeff_X_pow, hk]
      have hshift : t.getLsbD k = (decide (k + 1 < 128) && t.getLsbD k) := by
        rw [eq_comm, Bool.and_eq_right_iff_imp, decide_eq_true_iff]
        intro hset
        have := BitVec.lt_of_getLsbD hset
        omega
      rw [hcarry, add_zero, hshift]
      simp

/-! ### The modulus -/

theorem blockPoly_87 : blockPoly 0x87#128 = X ^ 7 + X ^ 2 + X + 1 := by
  have hbits : 0x87#128 = 1#128 <<< 7 ^^^ 1#128 <<< 2 ^^^ 1#128 <<< 1 ^^^ 1#128 <<< 0 := by decide
  rw [hbits, blockPoly_xor, blockPoly_xor, blockPoly_xor, blockPoly_one_shiftLeft (by norm_num),
    blockPoly_one_shiftLeft (by norm_num), blockPoly_one_shiftLeft (by norm_num),
    blockPoly_one_shiftLeft (by norm_num), pow_one, pow_zero]

theorem fieldModulus_eq : fieldModulus = X ^ 128 + blockPoly 0x87#128 := by
  rw [blockPoly_87]
  unfold fieldModulus
  simp only [add_assoc]

theorem fieldModulus_monic : fieldModulus.Monic :=
  fieldModulus_eq ▸ monic_X_pow_add (degree_blockPoly_lt _)

theorem degree_fieldModulus : fieldModulus.degree = (128 : ℕ) := by
  have hlow : (blockPoly 0x87#128).degree < (X ^ 128 : (ZMod 2)[X]).degree := by
    rw [degree_X_pow]
    exact degree_blockPoly_lt _
  rw [fieldModulus_eq, degree_add_eq_left_of_degree_lt hlow, degree_X_pow]

/-- A polynomial that is a block's, up to a multiple of the modulus, reduces to that block's. The
modulus is generalized because unifying with it would unfold `X ^ 128`. -/
theorem modByMonic_eq_blockPoly {p : (ZMod 2)[X]} {b : Block} (q : (ZMod 2)[X])
    (h : blockPoly b + fieldModulus * q = p) : p %ₘ fieldModulus = blockPoly b := by
  have hmonic := fieldModulus_monic
  have hdegree : (blockPoly b).degree < fieldModulus.degree := by
    rw [degree_fieldModulus]
    exact degree_blockPoly_lt b
  generalize fieldModulus = m at *
  exact (div_modByMonic_unique q _ hmonic ⟨h, hdegree⟩).2

/-- `x^128 = x^7 + x^2 + x + 1` in the field: the two differ by the modulus. -/
theorem blockPoly_87_add_fieldModulus : blockPoly 0x87#128 + fieldModulus = X ^ 128 := by
  rw [fieldModulus_eq, add_left_comm, CharTwo.add_self_eq_zero, add_zero]

/-- The carry-out is the quotient by the modulus. -/
theorem blockPoly_mulAlpha (t : Block) :
    blockPoly (mulAlpha t) + fieldModulus * (if t.getLsbD 127 then 1 else 0) = X * blockPoly t := by
  rw [X_mul_blockPoly, mulAlpha_eq]
  cases t.getLsbD 127 with
  | false => simp [reduction]
  | true => simp [reduction, blockPoly_xor, add_assoc, blockPoly_87_add_fieldModulus]

/-- Settles O7: MulAlpha's block is the remainder of degree below 128, and so is 0x87's. -/
theorem mulAlphaIsFieldMultiplicationByX : Obligations.MulAlphaIsFieldMultiplicationByX := by
  refine ⟨fun t => modByMonic_eq_blockPoly _ (blockPoly_mulAlpha t), ?_, blockPoly_87⟩
  refine modByMonic_eq_blockPoly 1 ?_
  rw [mul_one, blockPoly_87_add_fieldModulus]

end Sys2Proof.Machine
end

section
/-! GF.MULA (spec/40_gf128.md R101). -/

namespace Sys2Proof.Machine

theorem sameOperands_endOk_setT (s : State) (b : Block) : SameOperands s (endOk (s.setT b)) :=
  sameOperands_finish none ⟨rfl, rfl, rfl, rfl, rfl, rfl, rfl, rfl, rfl, rfl, rfl⟩

/-- Settles O10: GF.MULA is a write of T followed by the common end of a command. -/
theorem gfMulaMultipliesT : Obligations.GfMulaMultipliesT := by
  refine ⟨fun s => ?_, by decide⟩
  exact ⟨_, exec_eq .gfMula s, endedOk_endOk _, rfl, sameOperands_endOk_setT s _, rfl,
    fun _ => rfl⟩

end Sys2Proof.Machine
end

section
/-! TweakGenerator (spec/41_tweakgen.md R110 to R114): the seed block is the sector zero-extended, and
TW.INIT and TW.ADV are writes of T followed by the common end of a command. -/

namespace Sys2Proof.Machine

/-! ### The seed -/

theorem blockByte_seed (v : BitVec 64) {i : Nat} (hi : i < 16) :
    blockByte (seed v) i = if i < 8 then v.extractLsb' (8 * i) 8 else 0#8 := by
  rw [seed, blockByte_blockOfBytes _ i (by simpa using hi) (by simp)]
  simp only [seedBytes]
  split
  · rw [List.getElem_append_left (by simpa)]
    simp [le64Bytes]
  · rw [List.getElem_append_right (by simp; omega), List.getElem_replicate]

theorem extractLsb'_eq_zero_of_le {w start : Nat} (x : BitVec w) (len : Nat) (h : w ≤ start) :
    x.extractLsb' start len = 0#len := by
  apply BitVec.eq_of_getLsbD_eq
  intro j _
  rw [BitVec.getLsbD_extractLsb', BitVec.getLsbD_of_ge x _ (by omega), Bool.and_false,
    BitVec.getLsbD_zero]

/-- Little-endian bytes first and zeros after them: the block has the number of the sector. -/
theorem seed_eq_setWidth (v : BitVec 64) : seed v = v.setWidth 128 := by
  refine block_ext fun i hi => ?_
  rw [blockByte_seed v hi, blockByte, BitVec.extractLsb'_setWidth_of_le (by omega)]
  split
  · rfl
  · exact (extractLsb'_eq_zero_of_le v 8 (by omega)).symm

/-- Dropping the padding gives the sector back. -/
theorem seed_injective : Function.Injective seed := by
  refine Function.LeftInverse.injective (g := BitVec.setWidth 64) fun v => ?_
  rw [seed_eq_setWidth, BitVec.setWidth_setWidth_of_le v (by norm_num), BitVec.setWidth_eq]

/-- Settles O11: the seed byte by byte, and its bytes listed on the rule's two examples. -/
theorem seedIsLittleEndianSector : Obligations.SeedIsLittleEndianSector := by
  refine ⟨fun v i hi => blockByte_seed v hi, seed_injective, ?_, ?_⟩
  · rw [blockBytes_seed]
    decide
  · rw [blockBytes_seed]
    decide

/-! ### The commands -/

theorem execState_twInit {s : State} {k : KeyPair} (hk : s.slots = some k) :
    execState .twInit s = endOk (s.setT (tweakInitial Config.hw k s.sector)) := by
  rcases twInitOn_cases Config.hw s with ⟨hnone, _⟩ | ⟨k', hk', h⟩
  · simp [hnone] at hk
  · obtain rfl : k' = k := Option.some.inj (hk'.symm.trans hk)
    exact h

theorem execState_twAdv (s : State) : execState .twAdv s = endOk (s.setT (mulAlpha s.t)) := rfl

/-- A command whose meaning is one write of T changes nothing else but how a command ends. -/
theorem exec_of_execState_setT {i : Instr} {s : State} {b : Block}
    (h : execState i s = endOk (s.setT b)) :
    ∃ t, exec i s = .next t ∧ EndedOk t ∧ t.t = b ∧
      SameOperands s t ∧ t.slots = s.slots ∧ SameMemory s t :=
  ⟨endOk (s.setT b), h ▸ exec_eq i s, endedOk_endOk _, rfl, sameOperands_endOk_setT s b, rfl,
    fun _ => rfl⟩

/-- Settles O12: with a key TW.INIT is the write of the initial tweak. -/
theorem twInitDerivesInitialTweak : Obligations.TwInitDerivesInitialTweak :=
  fun _ _ hk => exec_of_execState_setT (execState_twInit hk)

/-- Settles O13: TW.ADV is the write of MulAlpha(T), with or without a key. -/
theorem twAdvAdvancesT : Obligations.TwAdvAdvancesT :=
  fun s => exec_of_execState_setT (execState_twAdv s)

/-! ### The tweak sequence -/

/-- The state after `TW.INIT` and then `j` times `TW.ADV`. -/
def tweakRun (s : State) (j : Nat) : State := (execState .twAdv)^[j] (execState .twInit s)

theorem tweakRun_succ (s : State) (j : Nat) :
    tweakRun s (j + 1) = execState .twAdv (tweakRun s j) :=
  Function.iterate_succ_apply' _ _ _

theorem tweakRun_t {s : State} {k : KeyPair} (hk : s.slots = some k) (j : Nat) :
    (tweakRun s j).t = mulAlpha^[j] (tweakInitial Config.hw k s.sector) := by
  induction j with
  | zero => rw [tweakRun, Function.iterate_zero_apply, execState_twInit hk]; rfl
  | succ j ih =>
    rw [tweakRun_succ, execState_twAdv, endOk_t, setT_t, ih, Function.iterate_succ_apply']

/-- Settles O14: each command answers the next state of the run, and the run's T is the iterate. -/
theorem tweakSequenceByCommands : Obligations.TweakSequenceByCommands := by
  refine fun s k hk => ⟨tweakRun s, exec_eq .twInit s, fun j => ?_, tweakRun_t hk⟩
  rw [exec_eq, tweakRun_succ]

end Sys2Proof.Machine
end

section
/-! The sector functions (spec/42_xts_encrypt.md R123 to R126, spec/43_xts_decrypt.md R142 to R144):
the loop writes one XEX step per block, and a sector is the loop's blocks followed, when `rem > 0`,
by the `16 + rem` bytes of the stealing path. Stated of `xtsSector`, they hold in both directions. -/

namespace Sys2Proof.Machine

/-! ### Slices -/

theorem slice_length {l : Bytes} {i n : Nat} (h : i + n ≤ l.length) : (slice l i n).length = n := by
  rw [slice, List.length_take, List.length_drop]
  omega

theorem slice_drop (l : Bytes) (m i n : Nat) : slice (l.drop m) i n = slice l (m + i) n := by
  rw [slice, slice, List.drop_drop]

theorem slice_append_left {l l' : Bytes} {i n : Nat} (h : i + n ≤ l.length) :
    slice (l ++ l') i n = slice l i n := by
  rw [slice, slice, List.drop_append_of_le_length (by omega),
    List.take_append_of_le_length (by rw [List.length_drop]; omega)]

theorem slice_append_right {l : Bytes} (l' : Bytes) (m n : Nat) :
    slice (l ++ l') (l.length + m) n = slice l' m n := by
  rw [slice, slice, List.drop_append, List.drop_eq_nil_of_le (by omega), List.nil_append,
    Nat.add_sub_cancel_left]

/-- The last `n` bytes of a sequence are a slice of it. -/
theorem drop_eq_slice {l : Bytes} {i n : Nat} (h : l.length = i + n) : l.drop i = slice l i n := by
  rw [slice, List.take_of_length_le (by rw [List.length_drop]; omega)]

/-! ### The regular path -/

/-- Advancing the first tweak advances every tweak of the sequence (R114). -/
theorem tweakAt_advance (t : Block) (j : Nat) : tweakAt (advance t) j = tweakAt t (j + 1) := by
  rw [tweakAt_eq_iterate, tweakAt_eq_iterate, Function.iterate_succ_apply, advance]

/-- Block `j` of the loop's output is the XEX step of source block `j` under `T_j` (R123). -/
theorem slice_xexBlocks (f : Block → Block) {k : Nat} :
    ∀ {j : Nat} (w : Block) (src : Bytes), j < k →
      slice (xexBlocks f k w src).1 (16 * j) 16 =
        blockBytes (xex f (tweakAt w j) (blockOfBytes (slice src (16 * j) 16))) := by
  induction k with
  | zero => intro j w src hj; omega
  | succ k ih =>
    intro j w src hj
    rw [xexBlocks]
    cases j with
    | zero =>
      rw [slice_append_left (by rw [blockBytes_length])]
      exact List.take_of_length_le (blockBytes_length _).le
    | succ j =>
      have hshift : 16 * (j + 1) = 16 + 16 * j := by omega
      have hrest := ih (advance w) (src.drop 16) (Nat.lt_of_succ_lt_succ hj)
      rw [slice_drop, ← hshift, tweakAt_advance] at hrest
      rw [← hrest, hshift]
      exact slice_append_right (l := blockBytes _) _ _ _

section
variable (f : Block → Block) (steal : Block → Block → Bytes → Bytes) (t0 : Block) {src : Bytes}
  {n rem : Nat}

/-- On whole blocks a sector is the loop over all of them. -/
theorem xtsSector_whole (hlen : src.length = 16 * n) :
    xtsSector f steal t0 src = (xexBlocks f n t0 src).1 := by
  have hrem : remainder src.length = 0 := by rw [remainder, hlen]; omega
  have hcount : blockCount src.length = n := by rw [blockCount, hlen]; omega
  simp only [xtsSector, regularCount, hrem, hcount, if_true]

/-- On whole blocks, output block `j` is the XEX step of source block `j` under `T_j`. -/
theorem slice_xtsSector_whole (hlen : src.length = 16 * n) {j : Nat} (hj : j < n) :
    slice (xtsSector f steal t0 src) (16 * j) 16 =
      blockBytes (xex f (tweakAt t0 j) (blockOfBytes (slice src (16 * j) 16))) := by
  rw [xtsSector_whole f steal t0 hlen, slice_xexBlocks f t0 src hj]

/-! ### The stealing path -/

/-- A partial sector is the loop over all blocks but the last, then the stealing path on the last
block, under the tweak `T_(n-1)`, and the tail. -/
theorem xtsSector_partial (hlen : src.length = 16 * n + rem) (hpos : 0 < rem) (hrem : rem < 16) :
    xtsSector f steal t0 src =
      (xexBlocks f (n - 1) t0 src).1 ++
        steal (tweakAt t0 (n - 1)) (blockOfBytes (slice src (16 * (n - 1)) 16))
          (slice src (16 * n) rem) := by
  have hne : remainder src.length ≠ 0 := by rw [remainder, hlen]; omega
  have hcount : blockCount src.length = n := by rw [blockCount, hlen]; omega
  simp only [xtsSector, regularCount, if_neg hne, hcount, xexBlocks_tweak, drop_eq_slice hlen]

/-- In a partial sector the blocks before the last take the regular path. -/
theorem slice_xtsSector_partial (hlen : src.length = 16 * n + rem) (hpos : 0 < rem)
    (hrem : rem < 16) {j : Nat} (hj : j < n - 1) :
    slice (xtsSector f steal t0 src) (16 * j) 16 =
      blockBytes (xex f (tweakAt t0 j) (blockOfBytes (slice src (16 * j) 16))) := by
  rw [xtsSector_partial f steal t0 hlen hpos hrem,
    slice_append_left (by rw [xexBlocks_length]; omega), slice_xexBlocks f t0 src hj]

/-- From the last block on, the output of a partial sector is that of the stealing path. -/
theorem drop_xtsSector_partial (hlen : src.length = 16 * n + rem) (hpos : 0 < rem)
    (hrem : rem < 16) :
    (xtsSector f steal t0 src).drop (16 * (n - 1)) =
      steal (tweakAt t0 (n - 1)) (blockOfBytes (slice src (16 * (n - 1)) 16))
        (slice src (16 * n) rem) := by
  rw [xtsSector_partial f steal t0 hlen hpos hrem]
  exact List.drop_left' (xexBlocks_length f (n - 1) t0 src)

end

/-- The block the stealing path of encryption writes: the tail padded with the end of CC, under the
next tweak. -/
theorem take_stealEnc (f : Block → Block) (w last : Block) (tail : Bytes) :
    (stealEnc f w last tail).take 16 =
      blockBytes (xex f (advance w)
        (blockOfBytes (tail ++ (blockBytes (xex f w last)).drop tail.length))) :=
  List.take_left' (blockBytes_length _)

/-- After that block the stealing path of encryption writes the start of CC. -/
theorem drop_stealEnc (f : Block → Block) (w last : Block) (tail : Bytes) :
    (stealEnc f w last tail).drop 16 = (blockBytes (xex f w last)).take tail.length :=
  List.drop_left' (blockBytes_length _)

/-! ### The statements -/

/-- Settles O21: both functions are the sector function, whose blocks are the loop's. -/
theorem regularPathBlocks : Obligations.RegularPathBlocks :=
  fun hw k S _ _ _ hlen hj =>
    ⟨slice_xtsSector_whole _ _ (tweakInitial hw k S) hlen hj,
      slice_xtsSector_whole _ _ (tweakInitial hw k S) hlen hj⟩

/-- Settles O22: the loop's blocks come first, and from byte `16(n-1)` on the output is that of the
stealing path, whose working tweak `T_(n-1)` advances to `T_n`. -/
theorem stealingPathBlocks : Obligations.StealingPathBlocks := by
  intro hw k S src n rem hlen hn hpos hrem T E out CC PP
  have htail : (slice src (16 * n) rem).length = rem := slice_length hlen.ge
  have hlast : out.drop (16 * (n - 1)) =
      stealEnc (hw.enc k.k1) (T (n - 1)) (blockOfBytes (slice src (16 * (n - 1)) 16))
        (slice src (16 * n) rem) :=
    drop_xtsSector_partial _ _ (tweakInitial hw k S) hlen hpos hrem
  have hT : advance (T (n - 1)) = T n := congrArg T (Nat.sub_add_cancel hn)
  refine ⟨fun j hj => slice_xtsSector_partial _ _ (tweakInitial hw k S) hlen hpos hrem hj, ?_, ?_⟩
  · rw [slice, hlast, take_stealEnc, htail, hT]
  · rw [show 16 * n = 16 * (n - 1) + 16 by omega, ← List.drop_drop, hlast, drop_stealEnc, htail]

end Sys2Proof.Machine
end

section
/-! The sector commands with a key and buffers in order (spec/42_xts_encrypt.md R127,
spec/43_xts_decrypt.md R145). -/

namespace Sys2Proof.Machine

/-- With a key and buffers in order a sector command ends ok with the sector written. -/
theorem sectorCommand_of_ready {hw : Hw} (xts : KeyPair → BitVec 64 → Bytes → Bytes) {s : State}
    {k : KeyPair} (hk : s.slots = some k) (hready : SectorReady hw s) :
    sectorCommand hw xts s = endOk (s.setMem (sectorMem hw (xts k s.sector) s)).drawn := by
  rcases sectorCommand_cases hw xts s with ⟨hnone, _⟩ | ⟨_, e, _, herr, _⟩ | ⟨k', hk', _, h⟩
  · simp [hnone] at hk
  · simp [(bufferError_eq_none hw s).mpr hready] at herr
  · obtain rfl : k' = k := Option.some.inj (hk'.symm.trans hk)
    exact h

/-- What a sector command does with a key and buffers in order, whichever transformation `xts` it
applies: the result stands at the destination and the rest of the state keeps its values. -/
theorem exec_sectorCommand_of_ready {i : Instr} (hi : isSectorCommand i)
    {xts : KeyPair → BitVec 64 → Bytes → Bytes} {s : State}
    (hexec : execState i s = sectorCommand Config.hw xts s)
    (hlen : ∀ k sector src, 16 ≤ src.length → (xts k sector src).length = src.length)
    {k : KeyPair} (hmem : s.mem.wf = true) (hk : s.slots = some k)
    (hready : SectorReady Config.hw s) :
    ∃ t, exec i s = .next t ∧ EndedOk t ∧
      memRead t.mem (s.dstAddr Config.hw) (s.lenVal Config.hw) =
        xts k s.sector (memRead s.mem (s.srcAddr Config.hw) (s.lenVal Config.hw)) ∧
      SameMemoryOutside (s.dstAddr Config.hw) (s.dstAddr Config.hw + s.dcapVal Config.hw) s t ∧
      SameOperands s t ∧ t.t = s.t ∧ t.slots = s.slots := by
  have hstate := hexec.trans (sectorCommand_of_ready xts hk hready)
  obtain ⟨hoperands, houtside, -, hkeeps⟩ :=
    commandChanges_sectorMem hi hready (hlen k s.sector)
  have hend : s.dstEnd Config.hw = s.dstAddr Config.hw + s.dcapVal Config.hw :=
    min_eq_left hready.dstTop
  refine ⟨_, hstate ▸ exec_eq i s, endedOk_endOk _, ?_, hend ▸ houtside,
    sameOperands_finish none hoperands, hkeeps hi⟩
  exact memRead_sectorMem Config.hw _ hmem
    fun src hsrc => (hlen k s.sector src (hsrc ▸ hready.len)).trans hsrc

/-- Settles O26: XTS.ENC is the sector command whose transformation is XTSEnc, which keeps the
length. -/
theorem xtsEncEncryptsSector : Obligations.XtsEncEncryptsSector :=
  fun _ _ => exec_sectorCommand_of_ready (.inl rfl) rfl
    fun k sector _ => xtsEnc_length Config.hw k sector

end Sys2Proof.Machine
end

section
/-! The decryption of a sector (spec/43_xts_decrypt.md R143, R145). -/

namespace Sys2Proof.Machine

/-- The three parts of a partial sector's output, for a stealing path that writes one block and then
`rest`: the regular blocks, that block, and `rest` as the tail. -/
theorem xtsSector_partial_parts (f : Block → Block) (steal : Block → Block → Bytes → Bytes)
    (t0 : Block) {src : Bytes} {n rem : Nat} (hlen : src.length = 16 * n + rem) (hn : 1 ≤ n)
    (hpos : 0 < rem) (hrem : rem < 16) {block : Block} {rest : Bytes}
    (hsteal : steal (tweakAt t0 (n - 1)) (blockOfBytes (slice src (16 * (n - 1)) 16))
      (slice src (16 * n) rem) = blockBytes block ++ rest) :
    (∀ j, j < n - 1 → slice (xtsSector f steal t0 src) (16 * j) 16 =
      blockBytes (xex f (tweakAt t0 j) (blockOfBytes (slice src (16 * j) 16)))) ∧
    slice (xtsSector f steal t0 src) (16 * (n - 1)) 16 = blockBytes block ∧
    (xtsSector f steal t0 src).drop (16 * n) = rest := by
  have hlast : (xtsSector f steal t0 src).drop (16 * (n - 1)) = blockBytes block ++ rest :=
    (drop_xtsSector_partial f steal t0 hlen hpos hrem).trans hsteal
  refine ⟨fun _ hj => slice_xtsSector_partial f steal t0 hlen hpos hrem hj, ?_, ?_⟩
  · rw [slice, hlast, List.take_left' (blockBytes_length block)]
  · rw [show 16 * n = 16 * (n - 1) + 16 by omega, ← List.drop_drop, hlast,
      List.drop_left' (blockBytes_length block)]

/-- Settles O23: the inverse stealing path decrypts the last full block first, under `T_n`, and then
writes the block made of the tail, under `T_(n-1)`, before the start of PP. -/
theorem inverseStealingPathBlocks : Obligations.InverseStealingPathBlocks := by
  intro hw k S src n rem hlen hn hpos hrem T D out PP CC
  have htail : (slice src (16 * n) rem).length = rem := slice_length hlen.ge
  have hT : advance (T (n - 1)) = T n := congrArg T (Nat.sub_add_cancel hn)
  refine xtsSector_partial_parts _ _ (tweakInitial hw k S) hlen hn hpos hrem ?_
  change stealDec (hw.dec k.k1) (T (n - 1)) _ _ = _
  rw [stealDec, htail, hT]

/-- Settles O27: XTS.DEC is the sector command whose transformation is XTSDec, which keeps the
length. -/
theorem xtsDecDecryptsSector : Obligations.XtsDecDecryptsSector :=
  fun _ _ => exec_sectorCommand_of_ready (.inr rfl) rfl
    fun k sector _ => xtsDec_length Config.hw k sector

end Sys2Proof.Machine
end

section
/-! Construction and destruction (spec/44_construct_lifecycle.md R155 to R159): XTS.NEW and XTS.DROP
are writes of the key slots followed by the common end of a command. -/

namespace Sys2Proof.Machine

theorem sameOperands_endOk_setSlots (s : State) (k : Option KeyPair) :
    SameOperands s (endOk (s.setSlots k)) :=
  sameOperands_finish none ⟨rfl, rfl, rfl, rfl, rfl, rfl, rfl, rfl, rfl, rfl, rfl⟩

/-! ### Key material -/

/-- 0 is no supported length of lawful hardware, so the check of R156 for it adds nothing. -/
theorem keyMaterialOk_iff_of_lawful {hw : Hw} (hlawful : hw.Lawful) (s : State) :
    keyMaterialOk hw s = true ↔
      s.klen.toNat % 2 = 0 ∧ s.halfLen ∈ hw.keyLens ∧
        hw.keyOk s.keyHalves.k1 = true ∧ hw.keyOk s.keyHalves.k2 = true := by
  have hpos : s.halfLen ∈ hw.keyLens → s.halfLen ≠ 0 := fun h => (hlawful.keyLens_pos _ h).ne'
  rw [keyMaterialOk_iff, and_iff_right_of_imp hpos]

theorem le_kmax {hw : Hw} {h : Nat} (hmem : h ∈ hw.keyLens) : h ≤ kmax hw :=
  List.le_max_of_le' 0 hmem le_rfl

/-! ### XTS.NEW in UNKEYED -/

theorem xtsNewOn_of_acceptable {hw : Hw} {s : State} (hnone : s.slots = none)
    (hok : keyMaterialOk hw s = true) :
    xtsNewOn hw s = endOk (s.setSlots (some s.keyHalves)) := by
  simp [xtsNewOn, hnone, hok]

theorem xtsNewOn_of_unacceptable {hw : Hw} {s : State} (hnone : s.slots = none)
    (hbad : ¬ keyMaterialOk hw s = true) : xtsNewOn hw s = raise .invalidKeyLength s := by
  simp [xtsNewOn, hnone, hbad]

/-- Settles O16: the statement's condition is the model's check of the key material, which decides
between filling both slots in one write and raising on the state as it was. -/
theorem xtsNewConstructsBothKeysOrNone : Obligations.XtsNewConstructsBothKeysOrNone := by
  intro s hnone
  have hiff := keyMaterialOk_iff_of_lawful Config.hw_lawful s
  refine ⟨xtsNewOn Config.hw s, exec_eq .xtsNew s, ?_⟩
  by_cases hok : keyMaterialOk Config.hw s = true
  · rw [xtsNewOn_of_acceptable hnone hok]
    refine ⟨sameOperands_endOk_setSlots s _, rfl, fun _ => rfl, ?_⟩
    exact (if_pos (hiff.mp hok)).mpr ⟨endedOk_endOk _, rfl, rfl, rfl⟩
  · rw [xtsNewOn_of_unacceptable hnone hok]
    obtain ⟨hoperands, htweak, hslots, hmem⟩ := onlyStatus_raise .invalidKeyLength s
    refine ⟨hoperands, htweak, hmem, ?_⟩
    exact (if_neg (mt hiff.mpr hok)).mpr ⟨endedWith_raise _ s, hslots.trans hnone⟩

/-- Settles O17: KLEN = `2h` makes `h` the half, and a supported `h` is at most KMAX, half the length
of KEY. -/
theorem xtsNewSucceedsOnAnyHardware : Obligations.XtsNewSucceedsOnAnyHardware := by
  refine ⟨exec_eq .xtsNew, fun hw s h hlawful hnone hklen hlen hk1 hk2 => ?_⟩
  have hhalf : s.halfLen = h := by
    rw [State.halfLen, hklen, Nat.mul_div_cancel_left h two_pos]
  have hhalves : s.keyHalves = ⟨memRead s.key 0 h, memRead s.key h h⟩ := by
    rw [State.keyHalves, hhalf]
  have hok : keyMaterialOk hw s = true := by
    rw [keyMaterialOk_iff_of_lawful hlawful, hhalves, hhalf]
    exact ⟨by omega, hlen, hk1, hk2⟩
  rw [xtsNewOn_of_acceptable hnone hok, hhalves]
  exact ⟨Nat.mul_le_mul_left 2 (le_kmax hlen), endedOk_endOk _, rfl,
    sameOperands_endOk_setSlots s _, rfl, fun _ => rfl⟩

/-! ### XTS.DROP -/

/-- Settles O18: XTS.DROP writes empty slots whatever they held, and KEYED is whether they are
filled. -/
theorem xtsDropEmptiesSlots : Obligations.XtsDropEmptiesSlots :=
  fun s => ⟨endOk (s.setSlots none), exec_eq .xtsDrop s, endedOk_endOk _,
    keyed_of_slots_none rfl, rfl, rfl, sameOperands_endOk_setSlots s _, rfl, fun _ => rfl⟩

end Sys2Proof.Machine
end

section
/-! BC.inverse (spec/00_scope.md R9) as inverse functions, and the tweaks of different sectors
(spec/46_stated_properties.md R171): seed, encryption under K2 and every advance are injective. -/

namespace Sys2Proof.Machine

theorem dec_leftInverse_enc {hw : Hw} (hinv : hw.Inverse) {k : Bytes} (hk : hw.keyOk k = true) :
    Function.LeftInverse (hw.dec k) (hw.enc k) :=
  fun b => (hinv k b hk).1

theorem enc_leftInverse_dec {hw : Hw} (hinv : hw.Inverse) {k : Bytes} (hk : hw.keyOk k = true) :
    Function.LeftInverse (hw.enc k) (hw.dec k) :=
  fun b => (hinv k b hk).2

/-- Two initial tweaks that differ never meet again: each advance is a bijection (R104). -/
theorem tweakAt_injective (j : Nat) : Function.Injective fun t0 => tweakAt t0 j := by
  intro t t' h
  simp only [tweakAt_eq_iterate] at h
  exact mulAlpha_bijective.injective.iterate j h

theorem tweakInitial_injective {hw : Hw} {k : KeyPair} (hinv : hw.Inverse)
    (hk : hw.keyOk k.k2 = true) : Function.Injective (tweakInitial hw k) :=
  (dec_leftInverse_enc hinv hk).injective.comp seed_injective

/-- Settles O15: the seed, the initial tweak and each advance of it are injective in turn. -/
theorem tweaksOfDifferentSectorsDiffer : Obligations.TweaksOfDifferentSectorsDiffer :=
  fun _ _ _ _ hinv hk hne =>
    ⟨seed_injective.ne hne,
      fun j => (tweakAt_injective j).ne ((tweakInitial_injective hinv hk).ne hne)⟩

end Sys2Proof.Machine
end

section
/-! Encryption and decryption of a sector undo each other (spec/46_stated_properties.md R170, R172).
One argument serves both directions: the stealing paths of R125 and R143 are one path with its two
tweaks exchanged, and a sector is undone when its loop and its stealing path are. -/

namespace Sys2Proof.Machine

/-- Settles O24: the sector function keeps the length with either stealing path. -/
theorem sectorFunctionsPreserveLength : Obligations.SectorFunctionsPreserveLength :=
  fun hw k S _ h => ⟨xtsEnc_length hw k S h, xtsDec_length hw k S h⟩

/-! ### The loop -/

/-- The loop with `g` undoes the loop with its right inverse `f`, whatever bytes follow. -/
theorem xexBlocks_leftInverse {f g : Block → Block} (h : Function.LeftInverse g f) {k : Nat} :
    ∀ (w : Block) {src : Bytes} (rest : Bytes), 16 * k ≤ src.length →
      (xexBlocks g k w ((xexBlocks f k w src).1 ++ rest)).1 = src.take (16 * k) := by
  induction k with
  | zero => intro w src rest _; rfl
  | succ k ih =>
    intro w src rest hlen
    have hshift : 16 * (k + 1) = 16 + 16 * k := by omega
    have hfirst : (src.take 16).length = 16 := by rw [List.length_take]; omega
    have hrest := ih (advance w) (src := src.drop 16) rest (by rw [List.length_drop]; omega)
    rw [xexBlocks, xexBlocks, List.append_assoc, List.take_left' (blockBytes_length _),
      List.drop_left' (blockBytes_length _), hrest, blockOfBytes_blockBytes,
      xex_leftInverse h w, blockBytes_blockOfBytes hfirst, ← List.take_add, ← hshift]

/-! ### The stealing path -/

/-- The stealing path around two block functions: `first` makes the block whose start becomes the
tail, and `second` transforms the old tail padded with that block's end. -/
def stealBy (first second : Block → Block) (last : Block) (tail : Bytes) : Bytes :=
  let stolen := blockBytes (first last)
  blockBytes (second (blockOfBytes (tail ++ stolen.drop tail.length))) ++ stolen.take tail.length

theorem stealEnc_eq (f : Block → Block) (w : Block) :
    stealEnc f w = stealBy (xex f w) (xex f (advance w)) := rfl

theorem stealDec_eq (f : Block → Block) (w : Block) :
    stealDec f w = stealBy (xex f (advance w)) (xex f w) := rfl

/-- Stealing is undone by stealing with the inverses in the other order: the padded tail comes back
first, and its end completes the stolen bytes to the block they were taken from. -/
theorem stealBy_undo {e₁ d₁ e₂ d₂ : Block → Block} (h₁ : Function.LeftInverse d₁ e₁)
    (h₂ : Function.LeftInverse d₂ e₂) (last : Block) {tail : Bytes} (htail : tail.length ≤ 16) :
    stealBy d₂ d₁ (blockOfBytes ((stealBy e₁ e₂ last tail).take 16))
      ((stealBy e₁ e₂ last tail).drop 16) = blockBytes last ++ tail := by
  have hblock : (blockBytes (e₁ last)).length = 16 := blockBytes_length _
  have hstolen : ((blockBytes (e₁ last)).take tail.length).length = tail.length := by
    rw [List.length_take, hblock, min_eq_left htail]
  have hpadded : (tail ++ (blockBytes (e₁ last)).drop tail.length).length = 16 := by
    rw [List.length_append, List.length_drop, hblock]
    omega
  rw [stealBy, stealBy, List.take_left' (blockBytes_length _), List.drop_left' (blockBytes_length _),
    blockOfBytes_blockBytes, h₂, blockBytes_blockOfBytes hpadded, hstolen, List.drop_left,
    List.take_left, List.take_append_drop, blockOfBytes_blockBytes, h₁]

/-- The stealing path `unsteal` gives back the last block and the tail from what `steal` wrote. -/
structure StealUndone (steal unsteal : Block → Block → Bytes → Bytes) : Prop where
  length : ∀ w last tail, tail.length ≤ 16 → (steal w last tail).length = 16 + tail.length
  undo : ∀ w last tail, tail.length ≤ 16 →
    unsteal w (blockOfBytes ((steal w last tail).take 16)) ((steal w last tail).drop 16) =
      blockBytes last ++ tail

theorem stealEnc_undone {f g : Block → Block} (h : Function.LeftInverse g f) :
    StealUndone (stealEnc f) (stealDec g) where
  length w last _ := stealEnc_length f w last
  undo w last _ htail := by
    rw [stealEnc_eq, stealDec_eq]
    exact stealBy_undo (xex_leftInverse h w) (xex_leftInverse h (advance w)) last htail

theorem stealDec_undone {f g : Block → Block} (h : Function.LeftInverse g f) :
    StealUndone (stealDec f) (stealEnc g) where
  length w last _ := stealDec_length f w last
  undo w last _ htail := by
    rw [stealEnc_eq, stealDec_eq]
    exact stealBy_undo (xex_leftInverse h (advance w)) (xex_leftInverse h w) last htail

/-! ### The sector -/

section
variable {f g : Block → Block} {steal unsteal : Block → Block → Bytes → Bytes} (t0 : Block)
  {src : Bytes} {n rem : Nat}

theorem xtsSector_whole_undo (h : Function.LeftInverse g f) (hlen : src.length = 16 * n) :
    xtsSector g unsteal t0 (xtsSector f steal t0 src) = src := by
  have hout : (xexBlocks f n t0 src).1.length = 16 * n := xexBlocks_length f n t0 src
  have hloop := xexBlocks_leftInverse h t0 [] hlen.ge
  rw [List.append_nil] at hloop
  rw [xtsSector_whole f steal t0 hlen, xtsSector_whole g unsteal t0 hout, hloop, ← hlen,
    List.take_length]

/-- The loop gives back the blocks before the last, the stealing path the last block and the
tail. -/
theorem xtsSector_partial_undo (h : Function.LeftInverse g f) (hsteal : StealUndone steal unsteal)
    (hlen : src.length = 16 * n + rem) (hn : 1 ≤ n) (hpos : 0 < rem) (hrem : rem < 16) :
    xtsSector g unsteal t0 (xtsSector f steal t0 src) = src := by
  have htail : (slice src (16 * n) rem).length = rem := slice_length hlen.ge
  have hlast : (slice src (16 * (n - 1)) 16).length = 16 := slice_length (by omega)
  have hsplit : 16 * n = 16 * (n - 1) + 16 := by omega
  have hout : (xtsSector f steal t0 src).length = 16 * n + rem :=
    (xtsSector_length f hsteal.length t0 (by omega)).trans hlen
  have hstolen := drop_xtsSector_partial f steal t0 hlen hpos hrem
  have hloop : (xexBlocks g (n - 1) t0 (xtsSector f steal t0 src)).1 = src.take (16 * (n - 1)) := by
    rw [xtsSector_partial f steal t0 hlen hpos hrem]
    exact xexBlocks_leftInverse h t0 _ (by omega)
  calc xtsSector g unsteal t0 (xtsSector f steal t0 src)
      = src.take (16 * (n - 1)) ++
          (blockBytes (blockOfBytes (slice src (16 * (n - 1)) 16)) ++ slice src (16 * n) rem) := by
        rw [xtsSector_partial g unsteal t0 hout hpos hrem, hloop, ← drop_eq_slice hout, hsplit,
          ← List.drop_drop, slice, hstolen, ← hsplit, hsteal.undo _ _ _ (by omega)]
    _ = src.take (16 * (n - 1)) ++ src.drop (16 * (n - 1)) := by
        rw [blockBytes_blockOfBytes hlast, ← drop_eq_slice hlen, hsplit, ← List.drop_drop, slice,
          List.take_append_drop]
    _ = src := List.take_append_drop _ _

theorem xtsSector_undo (h : Function.LeftInverse g f) (hsteal : StealUndone steal unsteal)
    (h16 : 16 ≤ src.length) : xtsSector g unsteal t0 (xtsSector f steal t0 src) = src := by
  have hlen := (Nat.div_add_mod src.length 16).symm
  rcases Nat.eq_zero_or_pos (src.length % 16) with hwhole | hpartial
  · rw [hwhole, Nat.add_zero] at hlen
    exact xtsSector_whole_undo t0 h hlen
  · exact xtsSector_partial_undo t0 h hsteal hlen (by omega) hpartial (Nat.mod_lt _ (by norm_num))

end

/-! ### The sector functions -/

section
variable {hw : Hw} {k : KeyPair} (S : BitVec 64) {p : Bytes}

theorem xtsDec_xtsEnc (hinv : hw.Inverse) (hk : hw.keyOk k.k1 = true) (h16 : 16 ≤ p.length) :
    xtsDec hw k S (xtsEnc hw k S p) = p :=
  xtsSector_undo _ (dec_leftInverse_enc hinv hk) (stealEnc_undone (dec_leftInverse_enc hinv hk)) h16

theorem xtsEnc_xtsDec (hinv : hw.Inverse) (hk : hw.keyOk k.k1 = true) (h16 : 16 ≤ p.length) :
    xtsEnc hw k S (xtsDec hw k S p) = p :=
  xtsSector_undo _ (enc_leftInverse_dec hinv hk) (stealDec_undone (enc_leftInverse_dec hinv hk)) h16

end

/-- Settles O25: both functions keep the length and each undoes the other, so on each length
decryption is the inverse of encryption. -/
theorem decryptUndoesEncrypt : Obligations.DecryptUndoesEncrypt := by
  intro hw k S hinv hk
  refine ⟨fun p h16 => ⟨xtsDec_xtsEnc S hinv hk h16, xtsEnc_xtsDec S hinv hk h16⟩, fun L hL => ?_⟩
  have hinvOn : Set.InvOn (xtsDec hw k S) (xtsEnc hw k S) {p | p.length = L} {p | p.length = L} :=
    ⟨fun _ hp => xtsDec_xtsEnc S hinv hk (hL.trans_eq hp.symm),
      fun _ hp => xtsEnc_xtsDec S hinv hk (hL.trans_eq hp.symm)⟩
  exact hinvOn.bijOn
    (fun _ hp => (xtsEnc_length hw k S (hL.trans_eq hp.symm)).trans hp)
    (fun _ hp => (xtsDec_length hw k S (hL.trans_eq hp.symm)).trans hp)

end Sys2Proof.Machine
end

section
/-! What an ok completion of a sector command says (spec/46_stated_properties.md R176, and R170 at
command level): the buffers were in order, and the destination holds the command's function of the
source bytes before. -/

namespace Sys2Proof.Machine

section
variable {hw : Hw} {xts : KeyPair → BitVec 64 → Bytes → Bytes} {s : State} {k : KeyPair}

/-- Every path but the last raises. -/
theorem sectorReady_of_ok (hok : (sectorCommand hw xts s).err = false) : SectorReady hw s := by
  rcases sectorCommand_cases hw xts s with ⟨_, h⟩ | ⟨_, _, _, _, h⟩ | ⟨_, _, hready, _⟩
  · simp [h] at hok
  · simp [h] at hok
  · exact hready

theorem memRead_sectorCommand_of_ok
    (hlen : ∀ k sector src, 16 ≤ src.length → (xts k sector src).length = src.length)
    (hmem : s.mem.wf = true) (hk : s.slots = some k)
    (hok : (sectorCommand hw xts s).err = false) :
    memRead (sectorCommand hw xts s).mem (s.dstAddr hw) (s.lenVal hw) =
      xts k s.sector (memRead s.mem (s.srcAddr hw) (s.lenVal hw)) := by
  have hready := sectorReady_of_ok hok
  rw [sectorCommand_of_ready xts hk hready]
  exact memRead_sectorMem hw _ hmem
    fun src hsrc => (hlen k s.sector src (hsrc ▸ hready.len)).trans hsrc

theorem wf_sectorMem (out : Bytes → Bytes) (hmem : s.mem.wf = true) :
    (sectorMem hw out s).wf = true :=
  wf_memWrite _ _ (wf_memWrite _ _ hmem)

end

/-- XTS.ENC and XTS.DEC are sector commands, each of a function that keeps the length. -/
theorem execState_eq_sectorCommand {i : Instr} (hi : isSectorCommand i) :
    ∃ xts, (∀ s, execState i s = sectorCommand Config.hw xts s) ∧
      ∀ k sector src, 16 ≤ src.length → (xts k sector src).length = src.length := by
  rcases hi with rfl | rfl
  · exact ⟨xtsEnc Config.hw, fun _ => rfl, fun k sector _ => xtsEnc_length Config.hw k sector⟩
  · exact ⟨xtsDec Config.hw, fun _ => rfl, fun k sector _ => xtsDec_length Config.hw k sector⟩

/-- Settles O28: the function is the command's own, and buffers that overlap without being the same
are not in order. -/
theorem inPlaceEqualsDisjoint : Obligations.InPlaceEqualsDisjoint := by
  intro i hi
  obtain ⟨xts, hexec, hlen⟩ := execState_eq_sectorCommand hi
  have hanswer : ∀ s t, exec i s = .next t → t = sectorCommand Config.hw xts s := by
    intro s t h
    rw [exec_eq, hexec, Host.Outcome.next.injEq] at h
    exact h.symm
  refine ⟨⟨xts, fun s t k hmem hk h hok => ?_⟩, fun s t h hne hsrc hdst => ?_⟩
  · rw [hanswer s t h] at hok ⊢
    exact memRead_sectorCommand_of_ok hlen hmem hk hok
  · rw [← Bool.not_eq_false]
    intro hok
    have hready := sectorReady_of_ok (hanswer s t h ▸ hok)
    have hapart := hready.apart
    omega

/-- Settles O29: XTS.ENC keeps the key slots, SECTOR and LEN, so XTS.DEC reads the ciphertext at the
old destination and applies the inverse function to it. -/
theorem commandRoundTrip : Obligations.CommandRoundTrip := by
  intro hw s k c n hinv hkey hmem hk hencOk u hdecOk
  have hready : SectorReady hw s := sectorReady_of_ok hencOk
  have henc : xtsEncOn hw s = endOk (s.setMem (sectorMem hw (xtsEnc hw k s.sector) s)).drawn :=
    sectorCommand_of_ready (xtsEnc hw) hk hready
  have hu : u.mem.wf = true ∧ u.slots = some k ∧ u.sector = s.sector ∧ u.lenVal hw = s.lenVal hw := by
    simp only [u, henc, State.lenVal]
    exact ⟨wf_sectorMem _ hmem, hk, rfl, rfl⟩
  obtain ⟨humem, huk, husector, hulen⟩ := hu
  have hcipher : memRead u.mem (u.srcAddr hw) (s.lenVal hw) =
      xtsEnc hw k s.sector (memRead s.mem (s.srcAddr hw) (s.lenVal hw)) :=
    memRead_sectorCommand_of_ok (fun k sector _ => xtsEnc_length hw k sector) hmem hk hencOk
  calc memRead (xtsDecOn hw u).mem (u.dstAddr hw) (s.lenVal hw)
      = xtsDec hw k u.sector (memRead u.mem (u.srcAddr hw) (u.lenVal hw)) := by
        rw [← hulen]
        exact memRead_sectorCommand_of_ok (fun k sector _ => xtsDec_length hw k sector) humem huk
          hdecOk
    _ = xtsDec hw k s.sector
          (xtsEnc hw k s.sector (memRead s.mem (s.srcAddr hw) (s.lenVal hw))) := by
        rw [husector, hulen, hcipher]
    _ = memRead s.mem (s.srcAddr hw) (s.lenVal hw) :=
        xtsDec_xtsEnc s.sector hinv hkey ((memRead_length _ _ _).ge.trans' hready.len)

end Sys2Proof.Machine
end

section
/-! The errors of the commands (spec/60_exceptions.md R185 to R196). Which error a command ends with is a
function of the state it starts in, `commandError`; what the error leaves of that state depends on the
error alone, `errorState`. Each rule on one error is then read off `commandError`. -/

namespace Sys2Proof.Machine

/-! ### The error a command ends with -/

/-- The check a command fails first, in the order of R193; none when it ends ok. -/
def commandError (hw : Hw) (i : Instr) (s : State) : Option CmdError :=
  match i with
  | .xtsNew =>
    if s.keyed then some .illegalState
    else if keyMaterialOk hw s then none
    else some .invalidKeyLength
  | .xtsEnc | .xtsDec => if s.keyed then bufferError hw s else some .illegalState
  | .twInit => if s.keyed then none else some .illegalState
  | .gfMula | .twAdv | .xtsDrop => none

/-- The state an error is raised on: the two buffer errors leave the destination unspecified (R196). -/
def errorState (hw : Hw) (e : CmdError) (s : State) : State :=
  if e.spoilsDst then spoilDst hw s else s

section
variable {hw : Hw} {i : Instr} {s : State} {e : CmdError}

theorem keyed_of_slots_some {k : KeyPair} (h : s.slots = some k) : s.keyed = true :=
  (keyed_eq_true s).mpr ⟨k, h⟩

theorem commandError_xtsNew_of_keyed (h : s.keyed = true) :
    commandError hw .xtsNew s = some .illegalState := if_pos h

theorem commandError_xtsNew_of_unkeyed (h : s.keyed = false) :
    commandError hw .xtsNew s = if keyMaterialOk hw s then none else some .invalidKeyLength := by
  simp [commandError, h]

theorem commandError_twInit (hw : Hw) (s : State) :
    commandError hw .twInit s = if s.keyed then none else some .illegalState := rfl

theorem commandError_sector (hw : Hw) (s : State) (hi : isSectorCommand i) :
    commandError hw i s = if s.keyed then bufferError hw s else some .illegalState := by
  rcases hi with rfl | rfl <;> rfl

/-- A sector command raises as `commandError` says, or ends ok. -/
theorem sectorCommand_cases_of_commandError (hi : isSectorCommand i)
    (xts : KeyPair → BitVec 64 → Bytes → Bytes) :
    (∃ e, commandError hw i s = some e ∧ sectorCommand hw xts s = raise e (errorState hw e s)) ∨
    (commandError hw i s = none ∧ ∃ u, sectorCommand hw xts s = endOk u) := by
  rw [commandError_sector hw s hi]
  rcases sectorCommand_cases hw xts s with ⟨hnone, h⟩ | ⟨k, e, hk, he, h⟩ | ⟨k, hk, hready, h⟩
  · rw [keyed_of_slots_none hnone]
    exact .inl ⟨.illegalState, rfl, h⟩
  · rw [keyed_of_slots_some hk]
    exact .inl ⟨e, he, h⟩
  · rw [keyed_of_slots_some hk]
    exact .inr ⟨(bufferError_eq_none hw s).mpr hready, _, h⟩

/-- All a command can do: raise what `commandError` says, on what that error leaves, or end ok. -/
theorem execState_cases (i : Instr) (s : State) :
    (∃ e, commandError Config.hw i s = some e ∧
      execState i s = raise e (errorState Config.hw e s)) ∨
    (commandError Config.hw i s = none ∧ ∃ u, execState i s = endOk u) := by
  cases i with
  | xtsNew =>
    rcases xtsNewOn_cases Config.hw s with ⟨hk, h⟩ | ⟨hnone, hbad, h⟩ | ⟨hnone, hok, h⟩
    · exact .inl ⟨_, commandError_xtsNew_of_keyed (Option.isSome_iff_ne_none.mpr hk), h⟩
    · rw [commandError_xtsNew_of_unkeyed (keyed_of_slots_none hnone), hbad]
      exact .inl ⟨.invalidKeyLength, rfl, h⟩
    · rw [commandError_xtsNew_of_unkeyed (keyed_of_slots_none hnone), hok]
      exact .inr ⟨rfl, _, h⟩
  | xtsEnc => exact sectorCommand_cases_of_commandError (.inl rfl) _
  | xtsDec => exact sectorCommand_cases_of_commandError (.inr rfl) _
  | gfMula => exact .inr ⟨rfl, _, rfl⟩
  | twInit =>
    rw [commandError_twInit]
    rcases twInitOn_cases Config.hw s with ⟨hnone, h⟩ | ⟨k, hk, h⟩
    · rw [keyed_of_slots_none hnone]
      exact .inl ⟨.illegalState, rfl, h⟩
    · rw [keyed_of_slots_some hk]
      exact .inr ⟨rfl, _, h⟩
  | twAdv => exact .inr ⟨rfl, _, rfl⟩
  | xtsDrop => exact .inr ⟨rfl, _, rfl⟩

theorem execState_of_commandError (h : commandError Config.hw i s = some e) :
    execState i s = raise e (errorState Config.hw e s) := by
  rcases execState_cases i s with ⟨e', he', hstate⟩ | ⟨hnone, _⟩
  · obtain rfl : e' = e := Option.some.inj (he'.symm.trans h)
    exact hstate
  · simp [hnone] at h

/-- Only a command whose check failed sets ERR (R185). -/
theorem commandError_of_err (h : (execState i s).err = true) :
    ∃ e, commandError Config.hw i s = some e := by
  rcases execState_cases i s with ⟨e, he, _⟩ | ⟨_, u, hstate⟩
  · exact ⟨e, he⟩
  · simp [hstate] at h

/-- ERRCODE tells the errors apart (R192). -/
theorem code_injective : Function.Injective CmdError.code := by
  intro e e'
  cases e <;> cases e' <;> decide

/-- A command ends with the error its checks answer, and with no other. -/
theorem endsWith_iff : EndsWith i s e ↔ commandError Config.hw i s = some e := by
  constructor
  · rintro ⟨t, ht, herr, hcode⟩
    obtain rfl : execState i s = t := Host.Outcome.next.inj ((exec_eq i s).symm.trans ht)
    obtain ⟨e', he'⟩ := commandError_of_err herr
    rw [execState_of_commandError he'] at hcode
    rw [he', code_injective hcode]
  · intro h
    exact ⟨_, exec_eq i s, by rw [execState_of_commandError h]; exact ⟨rfl, rfl⟩⟩

/-! ### What an error leaves -/

theorem errorState_of_not_spoilsDst (h : e.spoilsDst = false) : errorState hw e s = s := by
  simp [errorState, h]

/-- Every error keeps T, the key slots and what no command writes; memory outside the declared
destination, and all of it unless the error is one of the two buffer errors (R195, R196). -/
theorem raise_errorState_frame (hw : Hw) (e : CmdError) (s : State) :
    SameOperands s (raise e (errorState hw e s)) ∧ (raise e (errorState hw e s)).t = s.t ∧
    (raise e (errorState hw e s)).slots = s.slots ∧
    SameMemoryOutside (s.dstAddr hw) (s.dstEnd hw) s (raise e (errorState hw e s)) ∧
    (e.spoilsDst = false → SameMemory s (raise e (errorState hw e s))) := by
  cases hspoils : e.spoilsDst with
  | false =>
    rw [errorState_of_not_spoilsDst hspoils]
    obtain ⟨hoperands, htweak, hslots, hmem⟩ := onlyStatus_raise e s
    exact ⟨hoperands, htweak, hslots, fun a _ => hmem a, fun _ => hmem⟩
  | true =>
    rw [errorState, if_pos hspoils]
    exact ⟨sameOperands_finish _ (sameOperands_spoilDst hw s), rfl, rfl,
      sameMemoryOutside_spoilDst hw s, fun h => by cases h⟩

/-- An error that leaves the destination alone changes nothing but STATUS. -/
theorem onlyStatus_of_endsWith (hspoils : e.spoilsDst = false) (h : EndsWith i s e) :
    ∃ t, exec i s = .next t ∧ OnlyStatus s t := by
  refine ⟨_, exec_eq i s, ?_⟩
  rw [execState_of_commandError (endsWith_iff.mp h), errorState_of_not_spoilsDst hspoils]
  exact onlyStatus_raise e s

/-- The errors told by their codes: all but the two buffer errors leave the destination alone. -/
theorem not_spoilsDst_of_code_ne (hlen : e.code ≠ CmdError.invalidInputLength.code)
    (hcap : e.code ≠ CmdError.bufferTooSmall.code) : e.spoilsDst = false := by
  cases e with
  | invalidInputLength => exact absurd rfl hlen
  | bufferTooSmall => exact absurd rfl hcap
  | invalidKeyLength => rfl
  | illegalCommand => rfl
  | illegalState => rfl
  | illegalRange => rfl

/-! ### When each check fails -/

theorem bufferError_eq_invalidInputLength (hw : Hw) (s : State) :
    bufferError hw s = some .invalidInputLength ↔ s.lenVal hw < 16 := by
  rcases bufferError_cases hw s with ⟨h, e⟩ | ⟨h, _, e⟩ | ⟨h, _, _, e⟩ | ⟨hready, e⟩
  · simp [e, h]
  · simp [e, h]
  · simp [e, h]
  · simp [e, hready.len]

theorem bufferError_eq_bufferTooSmall (hw : Hw) (s : State) :
    bufferError hw s = some .bufferTooSmall ↔ 16 ≤ s.lenVal hw ∧ s.dcapVal hw < s.lenVal hw := by
  rcases bufferError_cases hw s with ⟨h, e⟩ | ⟨h, h', e⟩ | ⟨_, h', _, e⟩ | ⟨hready, e⟩
  · simp [e, h]
  · simp [e, h, h']
  · simp [e, h']
  · simp [e, hready.dcap]

/-- A buffer passes `2^AW` (R58), or the buffers overlap without being the same (R59). -/
def BuffersOutOfRange (hw : Hw) (s : State) : Prop :=
  2 ^ hw.aw < s.srcAddr hw + s.lenVal hw ∨ 2 ^ hw.aw < s.dstAddr hw + s.dcapVal hw ∨
    (s.dstAddr hw ≠ s.srcAddr hw ∧ s.srcAddr hw < s.dstAddr hw + s.dcapVal hw ∧
      s.dstAddr hw < s.srcAddr hw + s.lenVal hw)

/-- Buffers in order are in range. -/
theorem SectorReady.not_outOfRange (h : SectorReady hw s) : ¬ BuffersOutOfRange hw s := by
  obtain ⟨_, _, hsrc, hdst, hapart⟩ := h
  rintro (hwrap | hwrap | hmeet)
  · exact absurd hsrc (Nat.not_le.mpr hwrap)
  · exact absurd hdst (Nat.not_le.mpr hwrap)
  · omega

theorem bufferError_eq_illegalRange (hw : Hw) (s : State) :
    bufferError hw s = some .illegalRange ↔
      16 ≤ s.lenVal hw ∧ s.lenVal hw ≤ s.dcapVal hw ∧ BuffersOutOfRange hw s := by
  rcases bufferError_cases hw s with ⟨h, e⟩ | ⟨_, h, e⟩ | ⟨h, h', hrange, e⟩ | ⟨hready, e⟩
  · simp [e, h]
  · simp [e, h]
  · exact iff_of_true e ⟨h, h', hrange⟩
  · simp [e, hready.not_outOfRange]

/-- The errors of the length and range checks are the sector commands' with a key. -/
theorem commandError_eq_bufferError (hstate : e ≠ .illegalState) (hkey : e ≠ .invalidKeyLength) :
    commandError hw i s = some e ↔
      isSectorCommand i ∧ s.keyed = true ∧ bufferError hw s = some e := by
  by_cases hi : isSectorCommand i
  · rw [commandError_sector hw s hi]
    cases s.keyed <;> simp [hi, hstate.symm]
  · refine iff_of_false (fun h => ?_) fun h => hi h.1
    cases i with
    | xtsEnc => exact hi (.inl rfl)
    | xtsDec => exact hi (.inr rfl)
    | xtsNew =>
      cases hk : s.keyed with
      | true => simp [commandError_xtsNew_of_keyed hk, hstate.symm] at h
      | false => simp [commandError_xtsNew_of_unkeyed hk, hkey.symm] at h
    | twInit => simp [commandError_twInit, hstate.symm] at h
    | gfMula => cases h
    | twAdv => cases h
    | xtsDrop => cases h

/-- The buffer checks raise neither the error of the state check nor that of the key material. -/
theorem bufferError_ne_stateOrKeyError (hw : Hw) (s : State) :
    bufferError hw s ≠ some .illegalState ∧ bufferError hw s ≠ some .invalidKeyLength := by
  rcases bufferError_cases hw s with ⟨_, e⟩ | ⟨_, _, e⟩ | ⟨_, _, _, e⟩ | ⟨_, e⟩ <;> simp [e]

theorem commandError_eq_invalidKeyLength :
    commandError hw i s = some .invalidKeyLength ↔
      i = .xtsNew ∧ s.keyed = false ∧ ¬ keyMaterialOk hw s = true := by
  have hsector : isSectorCommand i → commandError hw i s ≠ some .invalidKeyLength := by
    intro hi
    rw [commandError_sector hw s hi]
    cases s.keyed <;> simp [bufferError_ne_stateOrKeyError]
  cases i with
  | xtsNew =>
    cases hk : s.keyed with
    | true => simp [commandError_xtsNew_of_keyed hk]
    | false => simp [commandError_xtsNew_of_unkeyed hk]
  | xtsEnc => simp [hsector (.inl rfl)]
  | xtsDec => simp [hsector (.inr rfl)]
  | twInit => simp [commandError_twInit]
  | gfMula => simp [commandError]
  | twAdv => simp [commandError]
  | xtsDrop => simp [commandError]

theorem commandError_eq_illegalState :
    commandError hw i s = some .illegalState ↔
      ((isSectorCommand i ∨ i = .twInit) ∧ s.keyed = false) ∨ (i = .xtsNew ∧ s.keyed = true) := by
  by_cases hi : isSectorCommand i
  · have hnew : i ≠ .xtsNew := by rcases hi with rfl | rfl <;> decide
    rw [commandError_sector hw s hi]
    cases s.keyed <;> simp [hi, hnew, bufferError_ne_stateOrKeyError]
  · cases i with
    | xtsEnc => exact absurd (.inl rfl) hi
    | xtsDec => exact absurd (.inr rfl) hi
    | xtsNew =>
      cases hk : s.keyed with
      | true => simp [commandError_xtsNew_of_keyed hk]
      | false => simp [commandError_xtsNew_of_unkeyed hk, hi]
    | twInit => cases hk : s.keyed <;> simp [commandError_twInit, hk]
    | gfMula => simp [commandError, hi]
    | twAdv => simp [commandError, hi]
    | xtsDrop => simp [commandError, hi]

end

/-! ### The rules, error by error -/

/-- Settles O31: without a key only the check of the key material is left to fail. -/
theorem invalidKeyLengthExactly : Obligations.InvalidKeyLengthExactly := by
  refine ⟨rfl, fun i s => ⟨?_, onlyStatus_of_endsWith rfl⟩⟩
  rw [endsWith_iff, commandError_eq_invalidKeyLength,
    keyMaterialOk_iff_of_lawful Config.hw_lawful s]
  simp only [not_and_or, Bool.not_eq_true]
  rfl

/-- Settles O32: LEN is the first buffer check. -/
theorem invalidInputLengthExactly : Obligations.InvalidInputLengthExactly := by
  refine ⟨rfl, fun i s => ?_⟩
  rw [endsWith_iff, commandError_eq_bufferError (by decide) (by decide),
    bufferError_eq_invalidInputLength]

/-- Settles O33: DCAP is the second buffer check. -/
theorem bufferTooSmallExactly : Obligations.BufferTooSmallExactly := by
  refine ⟨rfl, fun i s => ?_⟩
  rw [endsWith_iff, commandError_eq_bufferError (by decide) (by decide),
    bufferError_eq_bufferTooSmall]

/-- Settles O34: the check of the operating state comes before every other. -/
theorem illegalStateExactly : Obligations.IllegalStateExactly := by
  refine ⟨rfl, fun i s => ⟨?_, onlyStatus_of_endsWith rfl⟩⟩
  rw [endsWith_iff, commandError_eq_illegalState]

/-- Settles O35: the range checks are the last, and they leave the destination alone. -/
theorem illegalRangeExactly : Obligations.IllegalRangeExactly := by
  refine ⟨rfl, fun i s => ⟨?_, onlyStatus_of_endsWith rfl⟩⟩
  rw [endsWith_iff, commandError_eq_bufferError (by decide) (by decide),
    bufferError_eq_illegalRange]
  rfl

/-- Settles O36: ERR is set by a failed check alone, and what that leaves is the frame of its error. -/
theorem errorsChangeNoArchitecturalState : Obligations.ErrorsChangeNoArchitecturalState := by
  intro i s t ht herr
  obtain rfl : execState i s = t := Host.Outcome.next.inj ((exec_eq i s).symm.trans ht)
  obtain ⟨e, he⟩ := commandError_of_err herr
  rw [execState_of_commandError he]
  obtain ⟨hoperands, htweak, hslots, houtside, hmem⟩ := raise_errorState_frame Config.hw e s
  exact ⟨hoperands, htweak, hslots, houtside,
    fun hlen hcap => hmem (not_spoilsDst_of_code_ne hlen hcap)⟩

/-- A sector command without a key, or with buffers not in order, fails one of its checks. -/
theorem commandError_sector_cases {hw : Hw} {i : Instr} {s : State} (hi : isSectorCommand i)
    (hnot : ¬ (s.keyed = true ∧ SectorReady hw s)) :
    ∃ e, commandError hw i s = some e ∧
      if s.keyed = false then e = .illegalState
      else if s.lenVal hw < 16 then e = .invalidInputLength
      else if s.dcapVal hw < s.lenVal hw then e = .bufferTooSmall
      else e = .illegalRange := by
  rw [commandError_sector hw s hi]
  cases hk : s.keyed with
  | false => exact ⟨_, rfl, by simp⟩
  | true =>
    rcases bufferError_cases hw s with ⟨h, e⟩ | ⟨h, h', e⟩ | ⟨h, h', _, e⟩ | ⟨hready, _⟩
    · exact ⟨_, e, by simp [h]⟩
    · exact ⟨_, e, by simp [h, h']⟩
    · exact ⟨_, e, by simp [h, h']⟩
    · exact absurd ⟨hk, hready⟩ hnot

/-- Settles O30: one check fails, in the order of R193, and its error leaves what its frame says. -/
theorem sectorErrorsInOrder : Obligations.SectorErrorsInOrder := by
  intro i s hi hnot
  obtain ⟨e, he, horder⟩ := commandError_sector_cases hi hnot
  obtain ⟨hoperands, htweak, hslots, houtside, hmem⟩ := raise_errorState_frame Config.hw e s
  refine ⟨_, exec_eq i s, ?_⟩
  rw [execState_of_commandError he]
  refine ⟨hoperands, htweak, hslots, ?_⟩
  split_ifs at horder ⊢ <;> subst horder
  · exact ⟨endedWith_raise _ _, hmem rfl⟩
  · exact ⟨endedWith_raise _ _, houtside⟩
  · exact ⟨endedWith_raise _ _, houtside⟩
  · exact ⟨endedWith_raise _ _, hmem rfl⟩

/-! ### Illegal words, and what stops the machine -/

/-- Settles O3: the decoder refuses an illegal word, and the completion then raises on the state as it
is. -/
theorem illegalWordChangesOnlyStatus : Obligations.IllegalWordChangesOnlyStatus := by
  refine ⟨rfl, fun s hbusy hengine hillegal => ?_⟩
  obtain ⟨e, he⟩ := (decode_error_iff s.cmdReg).mpr hillegal
  have hcomplete := complete_error ((congrArg decode (atEngineTurn_cmdReg s)).trans he)
  exact ⟨_, (step_engine hbusy hengine).trans hcomplete, endedWith_raise _ _, onlyStatus_raise _ _⟩

/-- The engine's turn stops nothing: in BUSY it completes, in IDLE nothing happens. -/
theorem engineTurn_next (s : State) : ∃ t, engineTurn s = .next t := by
  unfold engineTurn
  split
  · exact complete_next s
  · exact ⟨s, rfl⟩

/-- A wait stops nothing: in BUSY it completes, in IDLE it is a STATUS read. -/
theorem waitTurn_next (hw : Hw) (s : State) : ∃ t, waitTurn hw s = .next t := by
  unfold waitTurn
  split
  · exact complete_next s
  · exact ⟨_, rfl⟩

/-- Settles O51: each input but the host's store and load answers a next state. -/
theorem onlyHostMemoryAccessStops : Obligations.OnlyHostMemoryAccessStops := by
  intro s hport
  unfold step nextInput
  unfold portInputNext at hport
  cases hin : s.inputs with
  | nil => exact engineTurn_next s
  | cons x rest =>
    cases x with
    | engine => exact engineTurn_next s.popInput
    | wait => exact waitTurn_next Config.hw s
    | reset => exact ⟨_, rfl⟩
    | host a =>
      cases a with
      | write r v => exact ⟨_, rfl⟩
      | writeByte r i b => exact ⟨_, rfl⟩
      | read r => exact ⟨_, rfl⟩
      | readByte r i => exact ⟨_, rfl⟩
      | mem a bytes => simp [hin] at hport
      | dump a n => simp [hin] at hport

end Sys2Proof.Machine
end

section
/-! The host's accesses to claimed buffers (spec/70_reset_and_hazards.md R222, R223,
spec/93_implementation_defined.md U5) and the reset event (R215, R216). -/

namespace Sys2Proof.Machine

/-! ### Accesses to claimed buffers -/

section
variable {hw : Hw} {s : State} {c : Claim} {a : Nat}

/-- The source is looked at first, so a store that meets one is refused under its name (R222). -/
theorem hostStore_of_meets_src {bytes : Bytes} (hc : c ∈ s.claims)
    (hin : a + bytes.length ≤ addrSpace hw)
    (hmeet : rangesMeet a bytes.length c.src c.len = true) :
    hostStore hw a bytes s = .refused .sourceInFlight := by
  rw [hostStore, if_neg hin.not_gt, if_pos (List.any_eq_true.mpr ⟨c, hc, hmeet⟩)]

/-- A store that meets a claimed destination (R223) is refused; under the other name when it meets a
claimed source as well. -/
theorem hostStore_of_meets_dst {bytes : Bytes} (hc : c ∈ s.claims)
    (hin : a + bytes.length ≤ addrSpace hw)
    (hmeet : rangesMeet a bytes.length c.dst c.dcap = true) :
    hostStore hw a bytes s = .refused .sourceInFlight ∨
    hostStore hw a bytes s = .refused .destinationInFlight := by
  rw [hostStore, if_neg hin.not_gt]
  split
  · exact .inl rfl
  · exact .inr (if_pos (List.any_eq_true.mpr ⟨c, hc, hmeet⟩))

/-- A load that meets a claimed destination is refused (R223); sources may be read. -/
theorem hostLoad_of_meets_dst {n : Nat} (hc : c ∈ s.claims) (hin : a + n ≤ addrSpace hw)
    (hmeet : rangesMeet a n c.dst c.dcap = true) :
    hostLoad hw a n s = .refused .destinationInFlight := by
  rw [hostLoad, if_neg hin.not_gt, if_pos (List.any_eq_true.mpr ⟨c, hc, hmeet⟩)]

end

/-- Settles O52: the byte in both ranges makes them meet, which the checks of the store and the load
refuse; in IDLE the STATUS read empties the claims. -/
theorem buffersInFlightAreProtected : Obligations.BuffersInFlightAreProtected := by
  intro s c a x bytes n rest hc
  refine ⟨fun hin hinside hlo hhi => ?_, fun hin hinside hlo hhi hdst hdst' => ?_,
    fun hin hidle => ?_⟩
  · rw [step_host hin]
    have hmeet {b m : Nat} (hb : b ≤ x) (hb' : x < b + m) : rangesMeet a bytes.length b m = true :=
      (rangesMeet_eq_true _ _ _ _).mpr ⟨x, ⟨hlo, hhi⟩, hb, hb'⟩
    exact ⟨fun hsrc hsrc' => hostStore_of_meets_src hc hinside (hmeet hsrc hsrc'),
      fun hdst hdst' => hostStore_of_meets_dst hc hinside (hmeet hdst hdst')⟩
  · rw [step_host hin]
    exact hostLoad_of_meets_dst hc hinside
      ((rangesMeet_eq_true _ _ _ _).mpr ⟨x, ⟨hlo, hhi⟩, hdst, hdst'⟩)
  · rw [step_host hin]
    exact ⟨_, hostAct_read_status_idle Config.hw (s := { s with inputs := rest }) hidle, rfl⟩

/-! ### The reset event -/

/-- Of the commands only XTS.ENC and XTS.DEC access buffer memory. -/
theorem usesBuffers_of_decode {w : BitVec 32} {i : Instr} (h : decode w = .ok i) :
    usesBuffers w = true ↔ isSectorCommand i := by
  cases i <;> simp [usesBuffers, h, isSectorCommand]

theorem usesBuffers_eq_true (w : BitVec 32) :
    usesBuffers w = true ↔ w = commandWord .xtsEnc ∨ w = commandWord .xtsDec := by
  constructor
  · intro huses
    cases hd : decode w with
    | ok i =>
      rw [eq_commandWord_of_decode hd]
      exact ((usesBuffers_of_decode hd).mp huses).imp (congrArg _) (congrArg _)
    | error e => simp [usesBuffers, hd] at huses
  · rintro (rfl | rfl)
    · exact (usesBuffers_of_decode (decode_commandWord .xtsEnc)).mpr (.inl rfl)
    · exact (usesBuffers_of_decode (decode_commandWord .xtsDec)).mpr (.inr rfl)

theorem buffersInFlight_eq_true (s : State) : s.buffersInFlight = true ↔
    s.phase = .busy ∧ (s.cmdReg = commandWord .xtsEnc ∨ s.cmdReg = commandWord .xtsDec) := by
  rw [State.buffersInFlight, Bool.and_eq_true, busy_eq_true, usesBuffers_eq_true]

section
variable (hw : Hw) (s : State)

theorem resetEvent_mem :
    (resetEvent hw s).mem = if s.buffersInFlight then (spoilDst hw s).mem else s.mem :=
  apply_ite State.mem _ _ _

theorem resetEvent_inputs : (resetEvent hw s).inputs = s.inputs :=
  (apply_ite State.inputs _ _ _).trans (ite_self _)

theorem resetEvent_status : (resetEvent hw s).status = 0#32 :=
  calc (resetEvent hw s).status
    _ = State.reset.status := rfl
    _ = 0#32 := by decide

theorem workEmpty_resetEvent : WorkEmpty (resetEvent hw s) := ⟨rfl, rfl, rfl, rfl, rfl⟩

/-- Without a sector command in flight reset keeps buffer memory (R215). -/
theorem sameMemory_resetEvent (h : s.buffersInFlight = false) :
    SameMemory s (resetEvent hw s) := by
  intro a
  rw [resetEvent_mem, h, if_neg Bool.false_ne_true]

/-- An abandoned sector command loses its destination and nothing else (R216). -/
theorem sameMemoryOutside_resetEvent :
    SameMemoryOutside (s.dstAddr hw) (s.dstEnd hw) s (resetEvent hw s) := by
  intro a ha
  cases hflight : s.buffersInFlight with
  | false => exact sameMemory_resetEvent hw s hflight a
  | true =>
    rw [resetEvent_mem, if_pos hflight]
    exact sameMemoryOutside_spoilDst hw s a ha

end

theorem step_reset {s : State} {rest : List Input} (hin : s.inputs = .reset :: rest) :
    step s = .next (resetEvent Config.hw { s with inputs := rest }) := by
  simp [step, nextInput, State.popInput, hin]

/-- Settles O54: the reset event starts over from the power-on state, and the memory it keeps is the
old one unless a sector command is in flight. -/
theorem resetEventClearsCore : Obligations.ResetEventClearsCore := by
  intro s rest hin
  refine ⟨_, step_reset hin, rfl, resetEvent_status _ _, rfl, workEmpty_resetEvent _ _,
    resetEvent_inputs _ _, sameMemoryOutside_resetEvent Config.hw { s with inputs := rest },
    fun hnone => ?_⟩
  exact sameMemory_resetEvent Config.hw { s with inputs := rest }
    (Bool.eq_false_iff.mpr fun h => hnone ((buffersInFlight_eq_true _).mp h))

end Sys2Proof.Machine
end
